-- ==== Sys2Proof/Word.lean ====
section
/-! DEFINITION. The word types of CSRPI (spec/00_scope.md R4, R5). -/

namespace Sys2Proof

/-- One byte of a buffer register or byte string (R5). -/
abbrev Byte := BitVec 8

/-- One 32-bit word of the register window (spec/10_state.md R18), and the word of SHA-256
(spec/41_kdf.md R114). -/
abbrev Word := BitVec 32

/-- A 64-bit register: a time or an interval number (spec/10_state.md R26 to R28). -/
abbrev DWord := BitVec 64

/-- A 16-byte block: a key, a plaintext or a ciphertext of the cipher (spec/40_cipher.md R80). -/
abbrev Block := Vector Byte 16

/-- The offset of an access in the 256-byte register window (spec/20_memory.md R40). -/
abbrev Offset := BitVec 8

end Sys2Proof
end

