-- ==== Sys2Proof/Syntax.lean ====
section
/-! DEFINITION. The commands of CSRPI: one constructor per row of spec/opcode_table.json
(spec/30_encoding.md R65). -/

namespace Sys2Proof

/-- The time an INTERVAL command converts (spec/30_encoding.md R63). -/
inductive TimeSel where
  /-- TSEL = 0: TBEGIN (assembler `INTERVAL BEGIN`, R69). -/
  | timeBegin
  /-- TSEL = 1: TEND (assembler `INTERVAL END`, R69). -/
  | timeEnd
  deriving DecidableEq, Repr

/-- A command. `len` and `mlen` are the byte counts L and M of R62; `WellFormed` says that they fit
their 8-bit fields. -/
inductive Instr where
  /-- `NOP` (spec/42_interval_pad.md R144). -/
  | nop
  /-- `ENCRYPT` (spec/40_cipher.md R100). -/
  | encrypt
  /-- `HKDF L, M` (spec/41_kdf.md R120). -/
  | hkdf (len mlen : Nat)
  /-- `HMAC M` (spec/41_kdf.md R121). -/
  | hmac (mlen : Nat)
  /-- `INTERVAL BEGIN` or `INTERVAL END` (spec/42_interval_pad.md R142). -/
  | interval (tsel : TimeSel)
  /-- `PAD` (spec/42_interval_pad.md R143). -/
  | pad
  /-- `RPI_START` (spec/43_sequence.md R162). -/
  | rpiStart
  /-- `RPI_NEXT` (spec/43_sequence.md R163). -/
  | rpiNext
  deriving DecidableEq, Repr

end Sys2Proof
end

