-- ==== Sys2Proof/WellFormed.lean ====
section
/-! DEFINITION. Which terms of `Instr` a command word can carry (spec/30_encoding.md R62). -/

namespace Sys2Proof

/-- A byte count that fits an 8-bit field: `0..255` (R62). -/
def fitsField (n : Nat) : Bool := decide (n < 256)

/-- A command is well-formed when its byte counts fit their fields. The tighter ranges of HKDF and
HMAC are no matter of form: R62 sends a count that fits the field but breaks the range to
ERR_FIELD when the command executes. -/
def Instr.wellFormed : Instr → Bool
  | .nop => true
  | .encrypt => true
  | .hkdf len mlen => fitsField len && fitsField mlen
  | .hmac mlen => fitsField mlen
  | .interval _ => true
  | .pad => true
  | .rpiStart => true
  | .rpiNext => true

end Sys2Proof
end

