-- ==== Sys2Proof/Decode.lean ====
section
/-! DEFINITION. Decoding and encoding of command words (spec/30_encoding.md R60 to R68). -/

namespace Sys2Proof

/-- The rows of the opcode map (R65). -/
inductive Op where
  | nop | encrypt | hkdf | hmac | interval | pad | rpiStart | rpiNext
  deriving DecidableEq, Repr

/-- Why a word is ILLEGAL (R66, R67); the machine answers both with ERR_ILLEGAL. -/
inductive Illegal where
  /-- OP is in 0x08..0xFF. -/
  | reservedOpcode
  /-- OP is assigned, and a bit the command does not use is set. -/
  | unusedFieldSet
  deriving DecidableEq, Repr

/-- `match(C)` of R65. -/
def Op.pattern : Op → Word
  | .nop => 0x00000000
  | .encrypt => 0x00000001
  | .hkdf => 0x00000002
  | .hmac => 0x00000003
  | .interval => 0x00000004
  | .pad => 0x00000005
  | .rpiStart => 0x00000006
  | .rpiNext => 0x00000007

/-- `mask(C)` of R65. -/
def Op.mask : Op → Word
  | .nop => 0xFFFFFFFF
  | .encrypt => 0xFFFFFFFF
  | .hkdf => 0xFF0000FF
  | .hmac => 0xFF00FFFF
  | .interval => 0xFEFFFFFF
  | .pad => 0xFFFFFFFF
  | .rpiStart => 0xFFFFFFFF
  | .rpiNext => 0xFFFFFFFF

/-- The assigned opcode values of R61; 0x08 to 0xFF are reserved. -/
def Op.ofField (op : Nat) : Option Op :=
  match op with
  | 0 => some .nop
  | 1 => some .encrypt
  | 2 => some .hkdf
  | 3 => some .hmac
  | 4 => some .interval
  | 5 => some .pad
  | 6 => some .rpiStart
  | 7 => some .rpiNext
  | _ => none

/-- OP = w[7:0] (R60). -/
def opField (w : Word) : Nat := (w.extractLsb' 0 8).toNat

/-- L = zext(w[15:8]) (R62). -/
def lenField (w : Word) : Nat := (w.extractLsb' 8 8).toNat

/-- M = zext(w[23:16]) (R62). -/
def mlenField (w : Word) : Nat := (w.extractLsb' 16 8).toNat

/-- TSEL = w[24] (R63). -/
def tselField (w : Word) : TimeSel := if w.getLsbD 24 then .timeEnd else .timeBegin

/-- The command of row `c` with the operands that `w` carries (R62, R63). -/
def Op.build (c : Op) (w : Word) : Instr :=
  match c with
  | .nop => .nop
  | .encrypt => .encrypt
  | .hkdf => .hkdf (lenField w) (mlenField w)
  | .hmac => .hmac (mlenField w)
  | .interval => .interval (tselField w)
  | .pad => .pad
  | .rpiStart => .rpiStart
  | .rpiNext => .rpiNext

/-- `Decode(w)` of R66. Total: every word is a command or ILLEGAL by name. -/
def decode (w : Word) : Except Illegal Instr :=
  match Op.ofField (opField w) with
  | none => .error .reservedOpcode
  | some c => if w &&& c.mask = c.pattern then .ok (c.build w) else .error .unusedFieldSet

/-- The row of the opcode map a command belongs to. -/
def Instr.op : Instr → Op
  | .nop => .nop
  | .encrypt => .encrypt
  | .hkdf _ _ => .hkdf
  | .hmac _ => .hmac
  | .interval _ => .interval
  | .pad => .pad
  | .rpiStart => .rpiStart
  | .rpiNext => .rpiNext

/-- The TSEL bit of a time selection, at bit 24 (R60, R63). -/
def tselBits : TimeSel → Word
  | .timeBegin => 0x00000000
  | .timeEnd => 0x01000000

/-- The free fields of a command, in their places (R60). -/
def Instr.fieldBits : Instr → Word
  | .nop => 0
  | .encrypt => 0
  | .hkdf len mlen => (BitVec.ofNat 32 len <<< 8) ||| (BitVec.ofNat 32 mlen <<< 16)
  | .hmac mlen => BitVec.ofNat 32 mlen <<< 16
  | .interval tsel => tselBits tsel
  | .pad => 0
  | .rpiStart => 0
  | .rpiNext => 0

/-- The word of a well-formed command (R65, R69). -/
def encode (i : Instr) : Word := i.op.pattern ||| i.fieldBits

/-- The command the decoder reads from a word numbered as spec/opcode_table.json numbers it: bits at
and above `nbits` are zero, and a number of more than 32 bits is no command word (R68). -/
def decodeTableWord (nbits w : Nat) : Option Instr :=
  let v := w % 2 ^ nbits
  if v < 2 ^ 32 then
    match decode (BitVec.ofNat 32 v) with
    | .ok i => some i
    | .error _ => none
  else none

end Sys2Proof
end

