-- ==== Sys2Proof/Machine/Aes.lean ====
section
/-! DEFINITION. AES-128 on one block, as spec/40_cipher.md §2 gives it (R82 to R91). -/

namespace Sys2Proof.Machine

/-- Rows 0 to 3 of the S-box table (R84). -/
def sboxRows0 : List Byte :=
  [0x63, 0x7c, 0x77, 0x7b, 0xf2, 0x6b, 0x6f, 0xc5, 0x30, 0x01, 0x67, 0x2b, 0xfe, 0xd7, 0xab, 0x76] ++
  [0xca, 0x82, 0xc9, 0x7d, 0xfa, 0x59, 0x47, 0xf0, 0xad, 0xd4, 0xa2, 0xaf, 0x9c, 0xa4, 0x72, 0xc0] ++
  [0xb7, 0xfd, 0x93, 0x26, 0x36, 0x3f, 0xf7, 0xcc, 0x34, 0xa5, 0xe5, 0xf1, 0x71, 0xd8, 0x31, 0x15] ++
  [0x04, 0xc7, 0x23, 0xc3, 0x18, 0x96, 0x05, 0x9a, 0x07, 0x12, 0x80, 0xe2, 0xeb, 0x27, 0xb2, 0x75]

/-- Rows 4 to 7 of the S-box table (R84). -/
def sboxRows4 : List Byte :=
  [0x09, 0x83, 0x2c, 0x1a, 0x1b, 0x6e, 0x5a, 0xa0, 0x52, 0x3b, 0xd6, 0xb3, 0x29, 0xe3, 0x2f, 0x84] ++
  [0x53, 0xd1, 0x00, 0xed, 0x20, 0xfc, 0xb1, 0x5b, 0x6a, 0xcb, 0xbe, 0x39, 0x4a, 0x4c, 0x58, 0xcf] ++
  [0xd0, 0xef, 0xaa, 0xfb, 0x43, 0x4d, 0x33, 0x85, 0x45, 0xf9, 0x02, 0x7f, 0x50, 0x3c, 0x9f, 0xa8] ++
  [0x51, 0xa3, 0x40, 0x8f, 0x92, 0x9d, 0x38, 0xf5, 0xbc, 0xb6, 0xda, 0x21, 0x10, 0xff, 0xf3, 0xd2]

/-- Rows 8 to b of the S-box table (R84). -/
def sboxRows8 : List Byte :=
  [0xcd, 0x0c, 0x13, 0xec, 0x5f, 0x97, 0x44, 0x17, 0xc4, 0xa7, 0x7e, 0x3d, 0x64, 0x5d, 0x19, 0x73] ++
  [0x60, 0x81, 0x4f, 0xdc, 0x22, 0x2a, 0x90, 0x88, 0x46, 0xee, 0xb8, 0x14, 0xde, 0x5e, 0x0b, 0xdb] ++
  [0xe0, 0x32, 0x3a, 0x0a, 0x49, 0x06, 0x24, 0x5c, 0xc2, 0xd3, 0xac, 0x62, 0x91, 0x95, 0xe4, 0x79] ++
  [0xe7, 0xc8, 0x37, 0x6d, 0x8d, 0xd5, 0x4e, 0xa9, 0x6c, 0x56, 0xf4, 0xea, 0x65, 0x7a, 0xae, 0x08]

/-- Rows c to f of the S-box table (R84). -/
def sboxRowsC : List Byte :=
  [0xba, 0x78, 0x25, 0x2e, 0x1c, 0xa6, 0xb4, 0xc6, 0xe8, 0xdd, 0x74, 0x1f, 0x4b, 0xbd, 0x8b, 0x8a] ++
  [0x70, 0x3e, 0xb5, 0x66, 0x48, 0x03, 0xf6, 0x0e, 0x61, 0x35, 0x57, 0xb9, 0x86, 0xc1, 0x1d, 0x9e] ++
  [0xe1, 0xf8, 0x98, 0x11, 0x69, 0xd9, 0x8e, 0x94, 0x9b, 0x1e, 0x87, 0xe9, 0xce, 0x55, 0x28, 0xdf] ++
  [0x8c, 0xa1, 0x89, 0x0d, 0xbf, 0xe6, 0x42, 0x68, 0x41, 0x99, 0x2d, 0x0f, 0xb0, 0x54, 0xbb, 0x16]

/-- The S-box table of R84: entry `a` is `SBOX(a)`. It has 256 entries, so the default of `sbox` is
never used; `Sys2Proof.Laws.sbox_satisfies_R83` holds it against its definition (R83). -/
def sboxTable : List Byte := sboxRows0 ++ sboxRows4 ++ sboxRows8 ++ sboxRowsC

/-- `SBOX(a)` (R84). -/
def sbox (a : Byte) : Byte := sboxTable.getD a.toNat 0

/-- `xtime(a)` (R83). -/
def xtime (a : Byte) : Byte := (a <<< 1) ^^^ (if a.getLsbD 7 then 0x1B else 0x00)

/-- `xtime^i(a)` (R83). -/
def xtimes : Nat → Byte → Byte
  | 0, a => a
  | i + 1, a => xtimes i (xtime a)

/-- `gmul(a, b)`: the XOR of `xtime^i(a)` over the set bits `i` of `b` (R83). -/
def gmul (a b : Byte) : Byte :=
  (List.range 8).foldl (fun acc i => if b.getLsbD i then acc ^^^ xtimes i a else acc) 0

/-- The affine map of the S-box's definition, on `b = inv(a)` (R83). -/
def sboxAffine (b : Byte) : Byte :=
  b ^^^ b.rotateLeft 1 ^^^ b.rotateLeft 2 ^^^ b.rotateLeft 3 ^^^ b.rotateLeft 4 ^^^ 0x63

/-- Lane `s[r][c]` of the state, which is loaded and stored column by column: byte `r + 4*c` (R82). -/
def lane (s : Block) (r c : Fin 4) : Byte := s[r.val + 4 * c.val]

/-- The state whose lane `s[r][c]` is `f r c` (R82). -/
def ofLanes (f : Fin 4 → Fin 4 → Byte) : Block :=
  .ofFn fun k => f ⟨k.val % 4, by omega⟩ ⟨k.val / 4, by omega⟩

/-- SubBytes (R85). -/
def subBytes (s : Block) : Block := s.map sbox

/-- ShiftRows: `s'[r][c] = s[r][(c + r) mod 4]` (R86); `Fin 4` adds modulo 4. -/
def shiftRows (s : Block) : Block := ofLanes fun r c => lane s r (c + r)

/-- MixColumns (R87). Row `r` of each line of R87 has the factors 2 and 3 at `a_r` and `a_(r+1)`, the
row numbers counted modulo 4. -/
def mixColumns (s : Block) : Block :=
  ofLanes fun r c =>
    gmul (lane s r c) 2 ^^^ gmul (lane s (r + 1) c) 3 ^^^ lane s (r + 2) c ^^^ lane s (r + 3) c

/-- AddRoundKey (R88). -/
def addRoundKey (s rk : Block) : Block := s.zipWith (· ^^^ ·) rk

/-- RCON[1..10] (R90). -/
def rcon : List Byte := [0x01, 0x02, 0x04, 0x08, 0x10, 0x20, 0x40, 0x80, 0x1B, 0x36]

/-- A four-byte word of the key expansion (R89). -/
abbrev KeyWord := Vector Byte 4

/-- Word `w[4r + i]` of the round key `RK_r` (R89). -/
def keyWord (rk : Block) (i : Fin 4) : KeyWord :=
  #v[lane rk 0 i, lane rk 1 i, lane rk 2 i, lane rk 3 i]

/-- R89's `t` when `i mod 4 = 0`: RotWord, SubWord, then RCON into byte 0. -/
def rotSubRcon (t : KeyWord) (rc : Byte) : KeyWord := #v[sbox t[1] ^^^ rc, sbox t[2], sbox t[3], sbox t[0]]

/-- The bytewise XOR of two words (R89). -/
def xorWord (a b : KeyWord) : KeyWord := a.zipWith (· ^^^ ·) b

/-- The next round key: four words of R89's recurrence. -/
def nextRoundKey (rk : Block) (rc : Byte) : Block :=
  let w0 := xorWord (keyWord rk 0) (rotSubRcon (keyWord rk 3) rc)
  let w1 := xorWord (keyWord rk 1) w0
  let w2 := xorWord (keyWord rk 2) w1
  let w3 := xorWord (keyWord rk 3) w2
  w0 ++ w1 ++ w2 ++ w3

/-- The round keys that follow `rk`, one for each round constant left (R89). -/
def roundKeysFrom (rk : Block) : List Byte → List Block
  | [] => []
  | rc :: rcs => nextRoundKey rk rc :: roundKeysFrom (nextRoundKey rk rc) rcs

/-- `RK_1 .. RK_10` of the key `k`; `RK_0` is `k` itself (R89). -/
def roundKeys (k : Block) : List Block := roundKeysFrom k rcon

/-- The rounds of R91 with the round keys left; the last one has no MixColumns. -/
def cipherRounds (s : Block) : List Block → Block
  | [] => s
  | [rk] => addRoundKey (shiftRows (subBytes s)) rk
  | rk :: rks => cipherRounds (addRoundKey (mixColumns (shiftRows (subBytes s))) rk) rks

/-- `AES128(K, P)` (R91). -/
def aes128 (k p : Block) : Block := cipherRounds (addRoundKey p k) (roundKeys k)

end Sys2Proof.Machine
end

