-- ==== Sys2Proof/Config.lean ====
section
/-! DEFINITION. The parameters of the block (spec/00_scope.md R3) and its free values. -/

namespace Sys2Proof

/-- The parameters a model takes as arguments (R3). They never change during a run.
`LAT(op)` and `BusProtocol` are not here: no rule of the model depends on them (R205, log entry 5). -/
structure Config where
  /-- `CAP`, the largest allowed `jEnd - jBegin` of RPI_START. DEDUCED: `CAP <= 2^32 - 2`, the bound
  under which spec/10_state.md R29 says that REMAIN fits its 32 bits (log entry 3). Safe. -/
  cap : Fin 4294967295
  /-- `BASE`, the bus address of byte offset 0x000 of the register window. -/
  base : Nat
  deriving DecidableEq, Repr

/-- The configuration a run starts with: R3's default for `CAP`; `BASE` is OPEN in R3 and is 0 here.
DESIGN CHOICE (log entry 3), unsafe for a claim that needs `base = 0`; every claim of this
package is about every configuration. -/
def Config.default : Config := { cap := 10000, base := 0 }

/-- FREE VALUE: what `Pad(j)` is for `j` outside `[0, 2^32 - 1]`, where spec/42_interval_pad.md R141
calls it undefined. No command of a reachable state asks for it. DESIGN CHOICE (log entry 6), safe. -/
opaque Config.padUndefined : Int → Block

/-- FREE VALUE: what `u64(x)` is for `x` outside `[-2^63, 2^63 - 1]`, where R4 gives it no meaning.
No command of a reachable state asks for it. DESIGN CHOICE (log entry 7), safe. -/
opaque Config.u64Undefined : Int → DWord

end Sys2Proof
end

