-- ==== Sys2Proof/Machine/State.lean ====
section
/-! DEFINITION. The state of CSRPI (spec/10_state.md R16 to R34), the reasons a step can stop, and
the state after reset (R38). -/

namespace Sys2Proof.Machine

/-- The result codes of spec/60_exceptions.md R180. Codes 6 to 15 are never produced. -/
inductive Code where
  /-- 0 OK. -/
  | ok
  /-- 1 ERR_ILLEGAL: the word matches no row of the opcode map. -/
  | illegal
  /-- 2 ERR_FIELD: LEN or MLEN out of range (HKDF, HMAC). -/
  | field
  /-- 3 ERR_RANGE: an interval number to be padded is outside [0, 2^32-1] (PAD, RPI_START). -/
  | range
  /-- 4 ERR_LIMIT: `jE - jB > CAP` (RPI_START). -/
  | limit
  /-- 5 ERR_SEQ: RPI_NEXT with REMAIN = 0. -/
  | seq
  deriving DecidableEq, Repr

/-- One action of the host on the bus (spec/20_memory.md R40, R43; spec/30_encoding.md R70). `addr` is
a bus address, `size` the width of the access in bytes. -/
inductive HostOp where
  /-- A read access. -/
  | read (addr size : Nat)
  /-- A write access of the value `v`. -/
  | write (addr size : Nat) (v : Word)
  /-- R70's `WAIT`: read STATUS until it shows BUSY = 0, one read a step (log entry 2). -/
  | wait
  deriving DecidableEq, Repr

/-- Who moves at a step: a step is one host access, one engine completion (R49) or one reset
(spec/70_reset_and_hazards.md R200). -/
inductive Turn where
  | host | engine | reset
  deriving DecidableEq, Repr

/-- The block's state (R16), the configuration it runs with, and the model's own record of its
surroundings. CMD and STATUS have no storage (R19, R20). -/
structure State where
  /-- ERRCODE: the result code of the last completed command (R21). -/
  errcode : Code
  /-- LASTCMD: the word of the last completed command (R22). -/
  lastcmd : Word
  /-- KEY0 to KEY3 (R23). -/
  key : Vector Word 4
  /-- DIN0 to DIN3 (R24). -/
  din : Vector Word 4
  /-- DOUT0 to DOUT3 (R25). -/
  dout : Vector Word 4
  /-- TBEGIN_HI and TBEGIN_LO (R26). -/
  tbegin : DWord
  /-- TEND_HI and TEND_LO (R26). -/
  tend : DWord
  /-- JVAL_HI and JVAL_LO (R27). -/
  jval : DWord
  /-- JCUR_HI and JCUR_LO (R28). -/
  jcur : DWord
  /-- JLAST_HI and JLAST_LO (R28). -/
  jlast : DWord
  /-- REMAIN (R29). -/
  remain : Word
  /-- SUBKEY0 to SUBKEY3 (R30). -/
  subkey : Vector Word 4
  /-- MSG0 to MSG15 (R31). -/
  msg : Vector Word 16
  /-- DK0 to DK7 (R32). -/
  dk : Vector Word 8
  /-- Hidden: a command is pending (R34). -/
  busy : Bool
  /-- Hidden: the accepted command word (R34). -/
  pending : Word
  /-- The sticky bit STATUS.DROP (R16, R20). -/
  drop : Bool
  /-- The model's own: the parameters of R3, constant (log entry 3). -/
  cfg : Config
  /-- The model's own: host accesses issued and not yet made, in issue order (R49, log entry 1). -/
  inputs : List HostOp
  /-- The model's own: who moves at the next steps (R49, R206, log entry 1). -/
  turns : List Turn
  /-- The model's own: the values the host has read (R207), newest first (log entry 1). -/
  reads : List Word
  deriving DecidableEq, Repr

/-- Nothing stops this machine with a fault: errors are result codes and never traps
(spec/60_exceptions.md R181), every host access has a defined outcome (R43 to R47) and every word
a meaning (R67, R186). So the type has no constructor. Safe (log entry 14). -/
inductive Fault where
  deriving DecidableEq, Repr

/-- Why a step is refused. -/
inductive Refusal where
  /-- Raised by an arm of `exec` for a command that has no meaning yet; no arm does. Safe. -/
  | notModelled (mnemonic : String)
  deriving DecidableEq, Repr

/-- The outcome of a step or of a command. -/
abbrev Outcome := Host.Outcome State Fault Refusal

/-- The machine right after reset: every register 0, `busy`, `pending` and `drop` 0 (R38, R34). The
model's own fields are empty, and the configuration is the default one (log entries 1 and 3). -/
def State.reset : State where
  errcode := .ok
  lastcmd := 0
  key := .replicate 4 0
  din := .replicate 4 0
  dout := .replicate 4 0
  tbegin := 0
  tend := 0
  jval := 0
  jcur := 0
  jlast := 0
  remain := 0
  subkey := .replicate 4 0
  msg := .replicate 16 0
  dk := .replicate 8 0
  busy := false
  pending := 0
  drop := false
  cfg := Config.default
  inputs := []
  turns := []
  reads := []

end Sys2Proof.Machine
end

