-- ==== Sys2Proof/Machine/Flags.lean ====
section
/-! DEFINITION. The result code's bits (spec/60_exceptions.md R180) and the STATUS word
(spec/10_state.md R20). -/

namespace Sys2Proof.Machine

/-- The value of a result code in ERRCODE[3:0] (R180). -/
def Code.bits : Code → BitVec 4
  | .ok => 0
  | .illegal => 1
  | .field => 2
  | .range => 3
  | .limit => 4
  | .seq => 5

/-- The word ERRCODE reads as: `zext_32(code)`, bits 31:4 zero (R21, R37). -/
def errcodeWord (s : State) : Word := s.errcode.bits.zeroExtend 32

/-- STATUS.GEN_ACTIVE: 1 if and only if REMAIN is not 0 (R20). -/
def genActive (s : State) : Bool := s.remain != 0

/-- STATUS.ERR: 1 if and only if ERRCODE is not 0 (R20). -/
def errFlag (s : State) : Bool := errcodeWord s != 0

/-- The word STATUS reads as: `zext_32(ERR || DROP || GEN_ACTIVE || BUSY)` (R20, spec/20_memory.md
R44). -/
def statusWord (s : State) : Word :=
  (BitVec.ofBool (errFlag s) ++ BitVec.ofBool s.drop ++ BitVec.ofBool (genActive s) ++
    BitVec.ofBool s.busy).zeroExtend 32

/-- The bit of a STATUS write that clears DROP: bit 2 (R20). -/
def clearsDrop (v : Word) : Bool := v.getLsbD 2

end Sys2Proof.Machine
end

