-- ==== Sys2Proof/Machine/Operands.lean ====
section
/-! DEFINITION. How commands read and form their operands: the constants of spec/00_scope.md R2, byte
order (spec/20_memory.md R41, R42), signed 64-bit values and byte strings (R4, R5). -/

namespace Sys2Proof.Machine

/-- `INTERVAL_SECONDS` (R2). -/
def intervalSeconds : Int := 600

/-- `TAG`, the ASCII bytes "EN-RPI" (R2). -/
def tag : Vector Byte 6 := #v[0x45, 0x4e, 0x2d, 0x52, 0x50, 0x49]

/-- `RPIK_INFO`, the ASCII bytes "EN-RPIK" (R2). -/
def rpikInfo : List Byte := [0x45, 0x4e, 0x2d, 0x52, 0x50, 0x49, 0x4b]

/-- `RPIK_LEN` (R2). -/
def rpikLen : Nat := 16

/-- `MSG_BYTES` (R2). -/
def msgBytes : Nat := 64

/-- `DK_BYTES` (R2). -/
def dkBytes : Nat := 32

/-- Byte `k` of a bus word, the least significant byte first (R41). -/
def byteOfWord (w : Word) (k : Nat) : Byte := w.extractLsb' (8 * k) 8

/-- The bus word whose bytes are `b0` (least significant) to `b3` (R41). -/
def wordOfBytes (b0 b1 b2 b3 : Byte) : Word := b3 ++ b2 ++ b1 ++ b0

/-- `Buf(NAME)`: byte `k` of a buffer register is byte `k mod 4` of its word `k div 4` (R41). -/
def bytesOf {n : Nat} (r : Vector Word n) : Vector Byte (4 * n) :=
  .ofFn fun k => byteOfWord r[k.val / 4] (k.val % 4)

/-- The words of a buffer register that holds the bytes `b` (R41). -/
def wordsOf {n : Nat} (b : Vector Byte (4 * n)) : Vector Word n :=
  .ofFn fun i => wordOfBytes b[4 * i.val] b[4 * i.val + 1] b[4 * i.val + 2] b[4 * i.val + 3]

/-- A byte string followed by zero bytes up to `n` bytes (R120's `Buf(DK)[L..32) <- 0x00 ...`). -/
def zeroFill (n : Nat) (bs : List Byte) : Vector Byte n := .ofFn fun k => bs.getD k.val 0

/-- The first `m` bytes of MSG: HKDF's `info` and HMAC's message (spec/10_state.md R31). -/
def msgPrefix (s : State) (m : Nat) : List Byte := (bytesOf s.msg).toList.take m

/-- `X_LO`, bits 31:0 of a 64-bit register (R18). -/
def loWord (x : DWord) : Word := x.extractLsb' 0 32

/-- `X_HI`, bits 63:32 of a 64-bit register (R18). -/
def hiWord (x : DWord) : Word := x.extractLsb' 32 32

/-- The 64-bit register `X_HI || X_LO` (R41). -/
def dword (hi lo : Word) : DWord := hi ++ lo

/-- `s64(v)`: a 64-bit pattern as a two's-complement integer (R4). -/
def s64 (v : DWord) : Int := v.toInt

/-- `u64(x)`: the 64-bit pattern of an integer in `[-2^63, 2^63 - 1]` (R4). Outside that range R4
gives no value, and the result is free (log entry 7). -/
def u64 (x : Int) : DWord :=
  if -9223372036854775808 ≤ x ∧ x ≤ 9223372036854775807 then BitVec.ofInt 64 x
  else Config.u64Undefined x

/-- `LE32(x)` (R5). -/
def le32 (x : Word) : Vector Byte 4 :=
  #v[byteOfWord x 0, byteOfWord x 1, byteOfWord x 2, byteOfWord x 3]

/-- `BE32(x)` (R5). -/
def be32 (x : Word) : List Byte := [byteOfWord x 3, byteOfWord x 2, byteOfWord x 1, byteOfWord x 0]

/-- `BE64(x)` (R5). -/
def be64 (x : DWord) : List Byte := be32 (hiWord x) ++ be32 (loWord x)

/-- The time INTERVAL converts: TBEGIN if TSEL = 0, TEND if TSEL = 1 (spec/42_interval_pad.md R142). -/
def selectedTime (tsel : TimeSel) (s : State) : Int :=
  match tsel with
  | .timeBegin => s64 s.tbegin
  | .timeEnd => s64 s.tend

end Sys2Proof.Machine
end

