-- ==== Sys2Proof/Machine/Ops.lean ====
section
/-! DEFINITION. The named operations over the state: the register window (spec/10_state.md R18,
spec/20_memory.md R40 to R47), acceptance and completion of a command (R36, R37), reset (R200). -/

namespace Sys2Proof.Machine

/-! ## Updates of one register -/

/-- KEY <- v. -/
def State.setKey (s : State) (v : Vector Word 4) : State := { s with key := v }

/-- DIN <- v. -/
def State.setDin (s : State) (v : Vector Word 4) : State := { s with din := v }

/-- DOUT <- v. -/
def State.setDout (s : State) (v : Vector Word 4) : State := { s with dout := v }

/-- TBEGIN <- v. -/
def State.setTbegin (s : State) (v : DWord) : State := { s with tbegin := v }

/-- TEND <- v. -/
def State.setTend (s : State) (v : DWord) : State := { s with tend := v }

/-- JVAL <- v. -/
def State.setJval (s : State) (v : DWord) : State := { s with jval := v }

/-- JCUR <- v. -/
def State.setJcur (s : State) (v : DWord) : State := { s with jcur := v }

/-- JLAST <- v. -/
def State.setJlast (s : State) (v : DWord) : State := { s with jlast := v }

/-- REMAIN <- v. -/
def State.setRemain (s : State) (v : Word) : State := { s with remain := v }

/-- SUBKEY <- v. -/
def State.setSubkey (s : State) (v : Vector Word 4) : State := { s with subkey := v }

/-- MSG <- v. -/
def State.setMsg (s : State) (v : Vector Word 16) : State := { s with msg := v }

/-- DK <- v. -/
def State.setDk (s : State) (v : Vector Word 8) : State := { s with dk := v }

/-- `drop <- b` (R20). -/
def State.setDrop (s : State) (b : Bool) : State := { s with drop := b }

/-- The host accesses still to be made. -/
def State.setInputs (s : State) (ops : List HostOp) : State := { s with inputs := ops }

/-- The turn of this step is used up. -/
def State.popTurn (s : State) : State := { s with turns := s.turns.tail }

/-- The host has read the value `v`. -/
def State.pushRead (s : State) (v : Word) : State := { s with reads := v :: s.reads }

/-! ## Acceptance, completion, reset -/

/-- Acceptance of the command word `v` (R36). -/
def State.accept (s : State) (v : Word) : State := { s with pending := v, busy := true }

/-- The end of a completion with code `c`: ERRCODE and LASTCMD are written and `busy` falls, in the
step that applies the command's writes (R37). -/
def State.complete (s : State) (c : Code) : State :=
  { s with errcode := c, lastcmd := s.pending, busy := false }

/-- `Fail(c)` (spec/00_scope.md R7): the command ends with code `c` and writes no result register. This
is the block's counterpart of raising an exception; there is no trap and no return (R181, R189). -/
def State.fail (s : State) (c : Code) : State := s.complete c

/-- Reset: every register word, `busy`, `pending` and `drop` are 0 (spec/70_reset_and_hazards.md R200).
The model's own fields stay as they are (log entry 9). -/
def State.applyReset (s : State) : State :=
  { State.reset with cfg := s.cfg, inputs := s.inputs, turns := s.turns, reads := s.reads }

/-! ## The register window -/

/-- Which half of a 64-bit register a word is (R18). -/
inductive Half where
  | lo | hi
  deriving DecidableEq, Repr

/-- The words of the register window (R18). -/
inductive WindowReg where
  | cmd | status | errcode | lastcmd
  | key (i : Fin 4) | din (i : Fin 4) | dout (i : Fin 4)
  | tbegin (h : Half) | tend (h : Half) | jval (h : Half) | jcur (h : Half) | jlast (h : Half)
  | remain
  | subkey (i : Fin 4) | msg (i : Fin 16) | dk (i : Fin 8)
  | reserved
  deriving DecidableEq, Repr

/-- The half at an offset of a LO/HI pair: the LO word is at the lower offset (R41). -/
def halfAt (o base : Nat) : Half := if o = base then .lo else .hi

/-- The register map of R18, for an aligned offset. -/
def windowReg (off : Offset) : WindowReg :=
  let o := off.toNat
  if o = 0x00 then .cmd
  else if o = 0x04 then .status
  else if o = 0x08 then .errcode
  else if o = 0x0C then .lastcmd
  else if _ : o < 0x20 then .key ⟨(o - 0x10) / 4, by omega⟩
  else if _ : o < 0x30 then .din ⟨(o - 0x20) / 4, by omega⟩
  else if _ : o < 0x40 then .dout ⟨(o - 0x30) / 4, by omega⟩
  else if o < 0x48 then .tbegin (halfAt o 0x40)
  else if o < 0x50 then .tend (halfAt o 0x48)
  else if o < 0x58 then .jval (halfAt o 0x50)
  else if o < 0x60 then .jcur (halfAt o 0x58)
  else if o < 0x68 then .jlast (halfAt o 0x60)
  else if o = 0x68 then .remain
  else if o < 0x70 then .reserved
  else if _ : o < 0x80 then .subkey ⟨(o - 0x70) / 4, by omega⟩
  else if _ : o < 0xC0 then .msg ⟨(o - 0x80) / 4, by omega⟩
  else if _ : o < 0xE0 then .dk ⟨(o - 0xC0) / 4, by omega⟩
  else .reserved

/-- Only a 32-bit access at a multiple of 4 is honoured (R43). -/
def honoured (off : Offset) (size : Nat) : Bool := size == 4 && off.toNat % 4 == 0

/-- The word of a 64-bit register at half `h`. -/
def halfOf (h : Half) (x : DWord) : Word :=
  match h with
  | .lo => loWord x
  | .hi => hiWord x

/-- The 64-bit register with its half `h` replaced by `v` (R47). -/
def withHalf (h : Half) (x : DWord) (v : Word) : DWord :=
  match h with
  | .lo => dword (hiWord x) v
  | .hi => dword v (loWord x)

/-- The value a read of a word of the window returns (R44). -/
def readReg (r : WindowReg) (s : State) : Word :=
  match r with
  | .cmd => 0
  | .status => statusWord s
  | .errcode => errcodeWord s
  | .lastcmd => s.lastcmd
  | .key i => s.key[i]
  | .din i => s.din[i]
  | .dout i => s.dout[i]
  | .tbegin h => halfOf h s.tbegin
  | .tend h => halfOf h s.tend
  | .jval h => halfOf h s.jval
  | .jcur h => halfOf h s.jcur
  | .jlast h => halfOf h s.jlast
  | .remain => s.remain
  | .subkey i => s.subkey[i]
  | .msg i => s.msg[i]
  | .dk i => s.dk[i]
  | .reserved => 0

/-- A write to STATUS: bit 2 clears DROP, nothing else happens, busy or not (R20). -/
def writeStatus (v : Word) (s : State) : State := if clearsDrop v then s.setDrop false else s

/-- An honoured write with `busy = 0`: an RW word stores the value, CMD accepts it, STATUS clears DROP
(R47); a read-only or reserved word discards it and sets DROP (R46, R33). -/
def writeReg (r : WindowReg) (v : Word) (s : State) : State :=
  match r with
  | .cmd => s.accept v
  | .status => writeStatus v s
  | .key i => s.setKey (s.key.set i v)
  | .din i => s.setDin (s.din.set i v)
  | .tbegin h => s.setTbegin (withHalf h s.tbegin v)
  | .tend h => s.setTend (withHalf h s.tend v)
  | .jval h => s.setJval (withHalf h s.jval v)
  | .msg i => s.setMsg (s.msg.set i v)
  | .errcode => s.setDrop true
  | .lastcmd => s.setDrop true
  | .dout _ => s.setDrop true
  | .jcur _ => s.setDrop true
  | .jlast _ => s.setDrop true
  | .remain => s.setDrop true
  | .subkey _ => s.setDrop true
  | .dk _ => s.setDrop true
  | .reserved => s.setDrop true

/-- `HostRead(off)` with an access of `size` bytes; a malformed read returns 0 (R43, R44). -/
def hostRead (off : Offset) (size : Nat) (s : State) : Word :=
  if honoured off size then readReg (windowReg off) s else 0

/-- `HostWrite(off, v)` with an access of `size` bytes: a malformed write is discarded (R43), and so is
every write but one to STATUS while busy (R45); both set DROP. -/
def hostWrite (off : Offset) (size : Nat) (v : Word) (s : State) : State :=
  if honoured off size then
    if s.busy && windowReg off != .status then s.setDrop true
    else writeReg (windowReg off) v s
  else s.setDrop true

/-- The bus address of an offset of the window (R40). -/
def busAddress (cfg : Config) (off : Offset) : Nat := cfg.base + off.toNat

/-- The offset a bus address has in the window; none for an address outside it, which does not reach
the block (R40). -/
def windowOffset (cfg : Config) (addr : Nat) : Option Offset :=
  if cfg.base ≤ addr ∧ addr - cfg.base < 256 then some (BitVec.ofNat 8 (addr - cfg.base)) else none

end Sys2Proof.Machine
end

