-- ==== Sys2Proof/Machine/Cipher.lean ====
section
/-! DEFINITION. The ENCRYPT command (spec/40_cipher.md R100). -/

namespace Sys2Proof.Machine

/-- `ENCRYPT`: DOUT <- AES128(KEY, DIN), code 0 (R100). -/
def execEncrypt (s : State) : Outcome :=
  .next ((s.setDout (wordsOf (aes128 (bytesOf s.key) (bytesOf s.din)))).complete .ok)

end Sys2Proof.Machine
end

