-- ==== Sys2Proof/Machine/Sha256.lean ====
section
/-! DEFINITION. SHA-256, as spec/41_kdf.md gives it (R111 to R117). -/

namespace Sys2Proof.Machine

/-- The hash state `H[0..7]` (R116). -/
abbrev HashState := Vector Word 8

/-- The initial hash value H0 (R112). -/
def hash0 : HashState :=
  #v[0x6a09e667, 0xbb67ae85, 0x3c6ef372, 0xa54ff53a, 0x510e527f, 0x9b05688c, 0x1f83d9ab, 0x5be0cd19]

/-- The round constants K[0..31] (R113). -/
def shaK0 : List Word :=
  [0x428a2f98, 0x71374491, 0xb5c0fbcf, 0xe9b5dba5, 0x3956c25b, 0x59f111f1, 0x923f82a4, 0xab1c5ed5] ++
  [0xd807aa98, 0x12835b01, 0x243185be, 0x550c7dc3, 0x72be5d74, 0x80deb1fe, 0x9bdc06a7, 0xc19bf174] ++
  [0xe49b69c1, 0xefbe4786, 0x0fc19dc6, 0x240ca1cc, 0x2de92c6f, 0x4a7484aa, 0x5cb0a9dc, 0x76f988da] ++
  [0x983e5152, 0xa831c66d, 0xb00327c8, 0xbf597fc7, 0xc6e00bf3, 0xd5a79147, 0x06ca6351, 0x14292967]

/-- The round constants K[32..63] (R113). -/
def shaK32 : List Word :=
  [0x27b70a85, 0x2e1b2138, 0x4d2c6dfc, 0x53380d13, 0x650a7354, 0x766a0abb, 0x81c2c92e, 0x92722c85] ++
  [0xa2bfe8a1, 0xa81a664b, 0xc24b8b70, 0xc76c51a3, 0xd192e819, 0xd6990624, 0xf40e3585, 0x106aa070] ++
  [0x19a4c116, 0x1e376c08, 0x2748774c, 0x34b0bcb5, 0x391c0cb3, 0x4ed8aa4a, 0x5b9cca4f, 0x682e6ff3] ++
  [0x748f82ee, 0x78a5636f, 0x84c87814, 0x8cc70208, 0x90befffa, 0xa4506ceb, 0xbef9a3f7, 0xc67178f2]

/-- The round constants K[0..63] (R113). -/
def shaK : List Word := shaK0 ++ shaK32

/-- `Ch` (R114). -/
def shaCh (x y z : Word) : Word := (x &&& y) ^^^ (~~~x &&& z)

/-- `Maj` (R114). -/
def shaMaj (x y z : Word) : Word := (x &&& y) ^^^ (x &&& z) ^^^ (y &&& z)

/-- `S0` (R114). -/
def shaBigS0 (x : Word) : Word := x.rotateRight 2 ^^^ x.rotateRight 13 ^^^ x.rotateRight 22

/-- `S1` (R114). -/
def shaBigS1 (x : Word) : Word := x.rotateRight 6 ^^^ x.rotateRight 11 ^^^ x.rotateRight 25

/-- `s0` (R114). -/
def shaSmallS0 (x : Word) : Word := x.rotateRight 7 ^^^ x.rotateRight 18 ^^^ (x >>> 3)

/-- `s1` (R114). -/
def shaSmallS1 (x : Word) : Word := x.rotateRight 17 ^^^ x.rotateRight 19 ^^^ (x >>> 10)

/-- The least `k >= 0` with `(n + 1 + k + 8) mod 64 = 0` (R111). -/
def shaPadLen (n : Nat) : Nat := (64 - (n + 9) % 64) % 64

/-- The padded message `M || 0x80 || 0x00^k || BE64(8*n)` (R111). -/
def shaPad (m : List Byte) : List Byte :=
  m ++ [0x80] ++ List.replicate (shaPadLen m.length) 0 ++ be64 (BitVec.ofNat 64 (8 * m.length))

/-- The 64-byte blocks of a padded message, in order (R111). -/
def shaBlocks (m : List Byte) : List (List Byte) :=
  (List.range (m.length / 64)).map fun i => (m.drop (64 * i)).take 64

/-- The BE32 values of a block's bytes, in order (R115). -/
def be32Words : List Byte → List Word
  | a :: b :: c :: d :: rest => (a ++ b ++ c ++ d) :: be32Words rest
  | _ => []

/-- `n` more words of the message schedule (R115). `ws` holds `W[t-1], W[t-2], …`, newest first, and
has at least 16 entries, so the defaults are never used. -/
def extendSchedule : Nat → List Word → List Word
  | 0, ws => ws
  | n + 1, ws =>
    extendSchedule n
      ((shaSmallS1 (ws.getD 1 0) + ws.getD 6 0 + shaSmallS0 (ws.getD 14 0) + ws.getD 15 0) :: ws)

/-- The message schedule `W[0..63]` of one block (R115). -/
def shaSchedule (block : List Byte) : List Word :=
  (extendSchedule 48 (be32Words block).reverse).reverse

/-- One round of the compression, on `(a,b,c,d,e,f,g,h)` with `K[t]` and `W[t]` (R116). -/
def shaRound (v : HashState) (kw : Word × Word) : HashState :=
  let t1 := v[7] + shaBigS1 v[4] + shaCh v[4] v[5] v[6] + kw.1 + kw.2
  let t2 := shaBigS0 v[0] + shaMaj v[0] v[1] v[2]
  #v[t1 + t2, v[0], v[1], v[2], v[3] + t1, v[4], v[5], v[6]]

/-- The compression of one block into the hash state (R116). -/
def shaCompress (h : HashState) (block : List Byte) : HashState :=
  h.zipWith (· + ·) ((shaK.zip (shaSchedule block)).foldl shaRound h)

/-- The hash state after all blocks of the padded message (R117). -/
def shaState (m : List Byte) : HashState := (shaBlocks (shaPad m)).foldl shaCompress hash0

/-- `SHA256(M)`: byte `k` is byte `k mod 4` of `BE32(H[k div 4])` (R117). -/
def sha256 (m : List Byte) : Vector Byte 32 :=
  .ofFn fun k => byteOfWord (shaState m)[k.val / 4] (3 - k.val % 4)

end Sys2Proof.Machine
end

