-- ==== Sys2Proof/Machine/Kdf.lean ====
section
/-! DEFINITION. HMAC-SHA-256 and HKDF-SHA-256 (spec/41_kdf.md R118, R119). -/

namespace Sys2Proof.Machine

/-- `K0`: the key, hashed if it is longer than 64 bytes, then zero-padded to 64 bytes (R118). -/
def hmacKey0 (k : List Byte) : List Byte :=
  let k' := if k.length > 64 then (sha256 k).toList else k
  k' ++ List.replicate (64 - k'.length) 0

/-- `HMAC(K, M)` (R118). -/
def hmac (k m : List Byte) : Vector Byte 32 :=
  let ipad := (hmacKey0 k).map (· ^^^ 0x36)
  let opad := (hmacKey0 k).map (· ^^^ 0x5c)
  sha256 (opad ++ (sha256 (ipad ++ m)).toList)

/-- The extract step: `PRK = HMAC(salt, IKM)` (R119). -/
def hkdfExtract (salt ikm : List Byte) : List Byte := (hmac salt ikm).toList

/-- The one expand block: `T1 = HMAC(PRK, INFO || 0x01)` (R119). -/
def hkdfExpand (prk info : List Byte) : List Byte := (hmac prk (info ++ [0x01])).toList

/-- `HKDF(IKM, INFO, L)` with the empty salt, for `1 <= L <= 32` (R119). -/
def hkdf (ikm info : List Byte) (l : Nat) : List Byte :=
  (hkdfExpand (hkdfExtract [] ikm) info).take l

end Sys2Proof.Machine
end

