-- ==== Sys2Proof/Machine/Derivation.lean ====
section
/-! DEFINITION. The HKDF and HMAC commands (spec/41_kdf.md R120, R121). -/

namespace Sys2Proof.Machine

/-- `HKDF L, M`: DK <- the L bytes of HKDF(KEY, MSG[0..M), L), then zero bytes; ERR_FIELD if L < 1,
L > 32 or M > 64 (R120). -/
def execHkdf (len mlen : Nat) (s : State) : Outcome :=
  .next
    (if len < 1 ∨ len > dkBytes ∨ mlen > msgBytes then s.fail .field
     else
      (s.setDk (wordsOf (zeroFill 32 (hkdf (bytesOf s.key).toList (msgPrefix s mlen) len)))).complete .ok)

/-- `HMAC M`: DK <- HMAC(KEY, MSG[0..M)); ERR_FIELD if M > 64 (R121). -/
def execHmac (mlen : Nat) (s : State) : Outcome :=
  .next
    (if mlen > msgBytes then s.fail .field
     else (s.setDk (wordsOf (hmac (bytesOf s.key).toList (msgPrefix s mlen)))).complete .ok)

end Sys2Proof.Machine
end

