-- ==== Sys2Proof/Machine/Clock.lean ====
section
/-! DEFINITION. The interval clock and the padding builder (spec/42_interval_pad.md R140, R141). -/

namespace Sys2Proof.Machine

/-- `Interval(t) = floor(t / 600)` (R140): floor toward minus infinity (R4). -/
def interval (t : Int) : Int := t.fdiv intervalSeconds

/-- The interval numbers that fit in 32 unsigned bits (R141). -/
def fitsPad (j : Int) : Bool := decide (0 ≤ j) && decide (j ≤ 4294967295)

/-- `Pad(j)`: the tag, six zero bytes, `LE32(j)`. Outside `[0, 2^32 - 1]` R141 leaves it undefined, and
the block is free (log entry 6). -/
def padBlock (j : Int) : Block :=
  if fitsPad j then tag ++ (.replicate 6 0 : Vector Byte 6) ++ le32 (BitVec.ofInt 32 j)
  else Config.padUndefined j

end Sys2Proof.Machine
end

