-- ==== Sys2Proof/Machine/IntervalPad.lean ====
section
/-! DEFINITION. The NOP, INTERVAL and PAD commands (spec/42_interval_pad.md R142 to R144). -/

namespace Sys2Proof.Machine

/-- `NOP`: code 0, and nothing else (R144). -/
def execNop (s : State) : Outcome := .next (s.complete .ok)

/-- `INTERVAL`: JVAL <- u64(Interval(t)) for the selected time, code 0 (R142). -/
def execInterval (tsel : TimeSel) (s : State) : Outcome :=
  .next ((s.setJval (u64 (interval (selectedTime tsel s)))).complete .ok)

/-- `PAD`: DIN <- Pad(JVAL); ERR_RANGE if JVAL does not fit in 32 unsigned bits (R143). -/
def execPad (s : State) : Outcome :=
  .next
    (if fitsPad (s64 s.jval) then (s.setDin (wordsOf (padBlock (s64 s.jval)))).complete .ok
     else s.fail .range)

end Sys2Proof.Machine
end

