-- ==== Sys2Proof/Machine/Sequence.lean ====
section
/-! DEFINITION. The identifier sequence generator: RPI_START and RPI_NEXT (spec/43_sequence.md R162,
R163). -/

namespace Sys2Proof.Machine

/-- `HKDF(K, RPIK_INFO, 16)`, the subkey of a key (R160 step (1), R162). -/
def rpiSubkey (key : Block) : Block := zeroFill 16 (hkdf key.toList rpikInfo rpikLen)

/-- The checks of RPI_START on the two interval numbers, LIMIT before RANGE (R162, R183). -/
def startCode (cap : Nat) (jB jE : Int) : Code :=
  if jE - jB > cap then .limit
  else if jE ≥ jB ∧ (jB < 0 ∨ jE > 4294967295) then .range
  else .ok

/-- The number of identifiers of a range: `max(0, jE - jB + 1)` (R162). -/
def rangeCount (jB jE : Int) : Nat := (jE - jB + 1).toNat

/-- `RPI_START`: checks the range; on success SUBKEY, JCUR, JLAST and REMAIN are set, on failure only
REMAIN <- 0 is written (R162, R165). -/
def execRpiStart (s : State) : Outcome :=
  let jB := interval (s64 s.tbegin)
  let jE := interval (s64 s.tend)
  .next
    (match startCode s.cfg.cap jB jE with
    | .ok =>
      ((((s.setSubkey (wordsOf (rpiSubkey (bytesOf s.key)))).setJcur (u64 jB)).setJlast (u64 jE)).setRemain
        (BitVec.ofNat 32 (rangeCount jB jE))).complete .ok
    | c => (s.setRemain 0).fail c)

/-- `RPI_NEXT`: DOUT <- AES128(SUBKEY, Pad(JCUR)), JCUR + 1, REMAIN - 1; ERR_SEQ if REMAIN is 0
(R163). -/
def execRpiNext (s : State) : Outcome :=
  .next
    (if s.remain = 0 then s.fail .seq
     else
      let j := s64 s.jcur
      (((s.setDout (wordsOf (aes128 (bytesOf s.subkey) (padBlock j)))).setJcur (u64 (j + 1))).setRemain
        (s.remain - 1)).complete .ok)

end Sys2Proof.Machine
end

