-- ==== Sys2Proof/Machine/Dispatch.lean ====
section
/-! DEFINITION. The meaning of each command at its completion (spec/30_encoding.md R66). -/

namespace Sys2Proof.Machine

def exec (i : Instr) (s : State) : Host.Outcome State Fault Refusal :=
  match i with
  | .nop => Sys2Proof.Machine.execNop s
  | .encrypt => Sys2Proof.Machine.execEncrypt s
  | .hkdf len mlen => Sys2Proof.Machine.execHkdf len mlen s
  | .hmac mlen => Sys2Proof.Machine.execHmac mlen s
  | .interval tsel => Sys2Proof.Machine.execInterval tsel s
  | .pad => Sys2Proof.Machine.execPad s
  | .rpiStart => Sys2Proof.Machine.execRpiStart s
  | .rpiNext => Sys2Proof.Machine.execRpiNext s

end Sys2Proof.Machine
end

