-- ==== Sys2Proof/Machine/Agents.lean ====
section
/-! DEFINITION. The moves of the two agents (spec/10_state.md R16, R37; spec/20_memory.md R49) and
which of them a step takes. -/

namespace Sys2Proof.Machine

/-- The engine's completion step: `Execute(pending)` of R66. A word that does not decode completes with
ERR_ILLEGAL. -/
def engineMove (s : State) : Outcome :=
  match decode s.pending with
  | .ok i => exec i s
  | .error _ => .next (s.fail .illegal)

/-- One action of the host. An access outside the window does not reach the block (R40, log entry 4).
`WAIT` reads STATUS and stays in the queue as long as it reads BUSY = 1 (R70, log entry 2). -/
def hostAct (op : HostOp) (rest : List HostOp) (s : State) : State :=
  match op with
  | .read addr size =>
    match windowOffset s.cfg addr with
    | some off => (s.pushRead (hostRead off size s)).setInputs rest
    | none => s.setInputs rest
  | .write addr size v =>
    match windowOffset s.cfg addr with
    | some off => (hostWrite off size v s).setInputs rest
    | none => s.setInputs rest
  | .wait =>
    let status := hostRead 0x04 4 s
    (s.pushRead status).setInputs (if status.getLsbD 0 then .wait :: rest else rest)

/-- The host's next action, in issue order (R49). -/
def hostMove (s : State) : State :=
  match s.inputs with
  | [] => s
  | op :: rest => hostAct op rest s

/-- Who moves, or nobody: reset has priority (R187); the engine is enabled exactly while busy (R37),
the host while it has an access to make; a turn whose agent is not enabled falls to the other, and
when `turns` is used up a busy engine moves first (R206, log entry 1). -/
def mover (s : State) : Option Turn :=
  match s.turns.head? with
  | some .reset => some .reset
  | some .host =>
    if s.inputs ≠ [] then some .host else if s.busy then some .engine else none
  | _ =>
    if s.busy then some .engine else if s.inputs ≠ [] then some .host else none

/-- The state in which `step` finds the command word `w` accepted and the engine about to complete it:
the engine's next instruction is `pending` (R34, R37, log entry 10). -/
def placeCommand (s : State) (w : Word) : State :=
  { s with pending := w, busy := true, turns := .engine :: s.turns }

end Sys2Proof.Machine
end

