-- ==== Sys2Proof/Machine/Step.lean ====
section
/-! DEFINITION. One step of the block: one host access, one engine completion (spec/20_memory.md R49)
or one reset (spec/70_reset_and_hazards.md R200). -/

namespace Sys2Proof.Machine

/-- One step. An idle block with no host access to make stays as it is (spec/60_exceptions.md R195). -/
def step (s : State) : Host.Outcome State Fault Refusal :=
  match mover s with
  | some .reset => .next s.popTurn.applyReset
  | some .engine => engineMove s.popTurn
  | some .host => .next (hostMove s.popTurn)
  | none => .next s.popTurn

/-- `s` with the instruction whose bits are `w` placed where the very next step takes it from: accepted
in `pending` with `busy` set, and the next turn the engine's (log entry 10). -/
def State.withFetchWord (s : State) (nbits w : Nat) : State :=
  placeCommand s (BitVec.ofNat 32 (w % 2 ^ nbits))

end Sys2Proof.Machine
end

