-- ==== Sys2Proof/Machine/HostProgram.lean ====
section
/-! DEFINITION. The host operations of spec/30_encoding.md R70 as lists of bus accesses, for a window
at the base of `cfg`. An offset here is a number that is added to BASE and never wraps: R70's expansions
are exact, so an operation that runs past offset 0xFF goes on outside the window (R40). -/

namespace Sys2Proof.Machine

/-- `WR off, imm32`: an access at `BASE + off`. -/
def hostWr (cfg : Config) (off : Nat) (v : Word) : List HostOp := [.write (cfg.base + off) 4 v]

/-- `RD off`: an access at `BASE + off`. -/
def hostRd (cfg : Config) (off : Nat) : List HostOp := [.read (cfg.base + off) 4]

/-- `EXEC` of a literal 32-bit word: `WAIT; WR 0x000, word; WAIT`. -/
def hostExecWord (cfg : Config) (w : Word) : List HostOp := [.wait] ++ hostWr cfg 0x00 w ++ [.wait]

/-- `EXEC` of a command in the syntax of R69. -/
def hostExec (cfg : Config) (i : Instr) : List HostOp := hostExecWord cfg (encode i)

/-- The words `B[4i] OR B[4i+1]<<8 OR B[4i+2]<<16 OR B[4i+3]<<24` written from `off` on: `LD16` for a
16-byte string, and the body of `LDMSG`. -/
def hostLdWords (cfg : Config) (off : Nat) {n : Nat} (b : Vector Byte (4 * n)) : List HostOp :=
  (List.finRange n).flatMap fun i => hostWr cfg (off + 4 * i.val) (wordsOf b)[i]

/-- `LD16 off, B`. -/
def hostLd16 (cfg : Config) (off : Nat) (b : Block) : List HostOp := hostLdWords (n := 4) cfg off b

/-- `LDMSG B` for `|B| <= 64`: `ceil(|B|/4)` words at 0x080, the last one zero-padded. -/
def hostLdMsg (cfg : Config) (b : List Byte) : List HostOp :=
  hostLdWords (n := (b.length + 3) / 4) cfg 0x80 (zeroFill _ b)

/-- `LD64 off, x` for `x` in `[-2^63, 2^63 - 1]`: the LO word, then the HI word. -/
def hostLd64 (cfg : Config) (off : Nat) (x : Int) : List HostOp :=
  hostWr cfg off (loWord (u64 x)) ++ hostWr cfg (off + 4) (hiWord (u64 x))

/-- `RD16 off`: four reads; the bytes are those of the four words read, by `bytesOf` (R41). -/
def hostRd16 (cfg : Config) (off : Nat) : List HostOp :=
  hostRd cfg off ++ hostRd cfg (off + 4) ++ hostRd cfg (off + 8) ++ hostRd cfg (off + 12)

/-- `CLRDROP`: `WR 0x004, 0x00000004`. -/
def hostClrDrop (cfg : Config) : List HostOp := hostWr cfg 0x04 0x00000004

end Sys2Proof.Machine
end

