-- ==== Sys2Proof/Safety.lean ====
section
/-! DEFINITION. The terms the claims are stated in: the invariants of spec/10_state.md R35, what a
command may write (spec/60_exceptions.md R182), and CS's generator function with what remains of a
running sequence (spec/43_sequence.md R160, R161). -/

namespace Sys2Proof.Machine

/-! ## Invariants -/

/-- The invariants (b) and (c) of R35. (a) holds by the definition of GEN_ACTIVE, and (d) is a matter
of `step`, which reads `pending` in an engine step only. -/
structure Inv (s : State) : Prop where
  /-- (b) A running sequence has its position inside the 32-bit interval numbers. -/
  position : s.remain ≠ 0 →
    0 ≤ s64 s.jcur ∧ s64 s.jcur ≤ s64 s.jlast ∧ s64 s.jlast ≤ 4294967295 ∧
      s64 s.jlast - s64 s.jcur + 1 = s.remain.toNat
  /-- (c) REMAIN is at most CAP + 1. -/
  bound : s.remain.toNat ≤ s.cfg.cap.val + 1

/-! ## What a step leaves alone -/

/-- KEY, TBEGIN, TEND and MSG: the operands that only the host writes (R23, R26, R31). -/
structure KeepsOperands (s t : State) : Prop where
  key : t.key = s.key
  tbegin : t.tbegin = s.tbegin
  tend : t.tend = s.tend
  msg : t.msg = s.msg

/-- The generator's state (R166). -/
structure KeepsGenerator (s t : State) : Prop where
  subkey : t.subkey = s.subkey
  jcur : t.jcur = s.jcur
  jlast : t.jlast = s.jlast
  remain : t.remain = s.remain

/-- DIN, DOUT, JVAL and DK: the result registers of the commands outside the generator (R182). -/
structure KeepsResults (s t : State) : Prop where
  din : t.din = s.din
  dout : t.dout = s.dout
  jval : t.jval = s.jval
  dk : t.dk = s.dk

/-- `pending`, DROP, the configuration, the host's accesses, the turns and the values read. -/
structure KeepsRest (s t : State) : Prop where
  pending : t.pending = s.pending
  drop : t.drop = s.drop
  cfg : t.cfg = s.cfg
  inputs : t.inputs = s.inputs
  turns : t.turns = s.turns
  reads : t.reads = s.reads

/-- `t` is the state after a command of `s` has completed with code `c` (R37). -/
structure CompletedWith (c : Code) (s t : State) : Prop where
  errcode : t.errcode = c
  lastcmd : t.lastcmd = s.pending
  busy : t.busy = false

/-- The offsets of the window whose words the command `i` may change: its result registers, and at
every completion STATUS, ERRCODE and LASTCMD (R37, R182). -/
def commandWrites (i : Instr) (off : Offset) : Bool :=
  let o := off.toNat
  (4 ≤ o && o < 0x10) ||
    match i with
    | .nop => false
    | .encrypt => 0x30 ≤ o && o < 0x40
    | .hkdf _ _ => 0xC0 ≤ o && o < 0xE0
    | .hmac _ => 0xC0 ≤ o && o < 0xE0
    | .interval _ => 0x50 ≤ o && o < 0x58
    | .pad => 0x20 ≤ o && o < 0x30
    | .rpiStart => (0x58 ≤ o && o < 0x6C) || (0x70 ≤ o && o < 0x80)
    | .rpiNext => (0x30 ≤ o && o < 0x40) || (0x58 ≤ o && o < 0x60) || (0x68 ≤ o && o < 0x6C)

/-! ## The access kinds of the window (R18) -/

/-- The words a host write stores to: KEY, DIN, TBEGIN, TEND, JVAL, MSG (R47). -/
def WindowReg.isRW : WindowReg → Bool
  | .key _ | .din _ | .tbegin _ | .tend _ | .jval _ | .msg _ => true
  | .cmd | .status | .errcode | .lastcmd | .dout _ | .jcur _ | .jlast _ | .remain | .subkey _ | .dk _
  | .reserved => false

/-! ## CS's generator function and the running sequence -/

/-- The errors of CS's `generateRollingIds` (R160). -/
inductive RollError where
  | limit | range
  deriving DecidableEq, Repr

/-- `RollingIds(EK, tB, tE)` of R160, for the cap `cap`. -/
def rollingIds (cap : Nat) (ek : Block) (tB tE : Int) : Except RollError (List Block) :=
  let sk := rpiSubkey ek
  let jB := interval tB
  let jE := interval tE
  if jE - jB > cap then .error .limit
  else if jE < jB then .ok []
  else if jB < 0 ∨ jE > 4294967295 then .error .range
  else .ok ((List.range (jE - jB + 1).toNat).map fun k : Nat => aes128 sk (padBlock (jB + k)))

/-- The identifiers a running sequence has still to produce, in order: one for each of the REMAIN
intervals from JCUR on, under SUBKEY (R28 to R30, R163). -/
def upcoming (s : State) : List Block :=
  (List.range s.remain.toNat).map fun k : Nat => aes128 (bytesOf s.subkey) (padBlock (s64 s.jcur + k))

/-- The command a step completes, if it is the engine's and its word decodes. -/
def completes (s : State) : Option Instr :=
  if mover s = some .engine then
    match decode s.pending with
    | .ok i => some i
    | .error _ => none
  else none

/-- The blocks that successful RPI_NEXTs put into DOUT during the first `n` steps, in order (R161). -/
def identifiers : Nat → State → List Block
  | 0, _ => []
  | n + 1, s =>
    match step s with
    | .next t =>
      (if completes s = some .rpiNext ∧ t.errcode = .ok then [bytesOf t.dout] else []) ++ identifiers n t
    | .fault _ => []
    | .refused _ => []

/-- No reset and no completion of RPI_START during the first `n` steps (R161). -/
def undisturbed : Nat → State → Bool
  | 0, _ => true
  | n + 1, s =>
    mover s != some .reset && completes s != some .rpiStart &&
      match step s with
      | .next t => undisturbed n t
      | .fault _ => true
      | .refused _ => true

end Sys2Proof.Machine
end

