-- ==== Sys2Proof/Certificates/Slice0/Obligations.lean ====
section
/-! DEFINITION. The statements for the provers. Each docstring names the rules of spec/ it formalises. -/

open Sys2Proof Sys2Proof.Machine

/-! ## Encoding (spec/30_encoding.md) -/

/-- Decoding the word of a well-formed command gives the command back, with every operand (R60 to R65). -/
def Obligations.DecodeOfEncode : Prop :=
  ∀ i : Instr, i.wellFormed = true → decode (encode i) = .ok i

/-- A word that decodes is the encoding of what it decodes to, so every word has one meaning (R65). -/
def Obligations.EncodeOfDecode : Prop :=
  ∀ (w : Word) (i : Instr), decode w = .ok i → i.wellFormed = true ∧ encode i = w

/-- R65, row by row: a word decodes to a command exactly when its masked bits match, the operands are
the named fields, and no word matches two rows. -/
def Obligations.DecodeMatchesOpcodeMap : Prop :=
  ∀ w : Word,
    (decode w = .ok .nop ↔ w &&& 0xFFFFFFFF = 0x00000000) ∧
    (decode w = .ok .encrypt ↔ w &&& 0xFFFFFFFF = 0x00000001) ∧
    (∀ l m : Nat, decode w = .ok (.hkdf l m) ↔
      w &&& 0xFF0000FF = 0x00000002 ∧ l = w.toNat / 2 ^ 8 % 256 ∧ m = w.toNat / 2 ^ 16 % 256) ∧
    (∀ m : Nat, decode w = .ok (.hmac m) ↔
      w &&& 0xFF00FFFF = 0x00000003 ∧ m = w.toNat / 2 ^ 16 % 256) ∧
    (decode w = .ok (.interval .timeBegin) ↔ w &&& 0xFEFFFFFF = 0x00000004 ∧ w.getLsbD 24 = false) ∧
    (decode w = .ok (.interval .timeEnd) ↔ w &&& 0xFEFFFFFF = 0x00000004 ∧ w.getLsbD 24 = true) ∧
    (decode w = .ok .pad ↔ w &&& 0xFFFFFFFF = 0x00000005) ∧
    (decode w = .ok .rpiStart ↔ w &&& 0xFFFFFFFF = 0x00000006) ∧
    (decode w = .ok .rpiNext ↔ w &&& 0xFFFFFFFF = 0x00000007) ∧
    (∀ c c' : Op, w &&& c.mask = c.pattern → w &&& c'.mask = c'.pattern → c = c')

/-- R64 and R61: a word with a reserved bit set or a reserved OP is no command. -/
def Obligations.ReservedEncodingsIllegal : Prop :=
  ∀ w : Word, (w.extractLsb' 25 7 ≠ 0 ∨ 0x08 ≤ (w.extractLsb' 0 8).toNat) → ∀ i : Instr, decode w ≠ .ok i

/-- R69: words of the assembler table and its examples decode to what they stand for. -/
def Obligations.SpecWordsDecode : Prop :=
  decode 0x00000001 = .ok .encrypt ∧ decode 0x00071002 = .ok (.hkdf 16 7) ∧
    decode 0x000D0003 = .ok (.hmac 13) ∧ decode 0x00002002 = .ok (.hkdf 32 0) ∧
    decode 0x01000004 = .ok (.interval .timeEnd) ∧ decode 0x00000006 = .ok .rpiStart

/-! ## Steps (spec/10_state.md R36, R37; spec/20_memory.md R49) -/

/-- When the engine moves and `pending` decodes to a command, the step is that command's meaning, in the
state whose turn is used up (R37, R66; the turns are the model's own, log entry 1). -/
def Obligations.StepRunsDecoded : Prop :=
  ∀ (s : State) (i : Instr), mover s = some .engine → decode s.pending = .ok i →
    step s = exec i s.popTurn

/-- A word placed for the next step is run by the next step: its command runs with the word pending, on
the state as it was (log entry 10). -/
def Obligations.PlacedWordRuns : Prop :=
  ∀ (s : State) (w : Nat) (i : Instr), decodeTableWord 32 w = some i →
    step (s.withFetchWord 32 w) = exec i (s.accept (BitVec.ofNat 32 w))

/-- R67 with R66: when the pending word matches no row of the opcode map, the engine's step completes with
ERR_ILLEGAL and writes nothing but ERRCODE and LASTCMD. -/
def Obligations.IllegalWordCompletes : Prop :=
  ∀ s : State, mover s = some .engine → (∀ c : Op, s.pending &&& c.mask ≠ c.pattern) →
    ∃ t, step s = .next t ∧ CompletedWith .illegal s t ∧ KeepsOperands s t ∧ KeepsGenerator s t ∧
      KeepsResults s t ∧ KeepsRest s.popTurn t

/-- R37: an engine step always completes the pending command: ERRCODE holds its code, LASTCMD its word,
`busy` falls, and the host's operands and everything outside the results stay (the model's own fields, log
entry 1, too). -/
def Obligations.EngineStepCompletes : Prop :=
  ∀ s : State, mover s = some .engine →
    ∃ t, step s = .next t ∧ CompletedWith t.errcode s t ∧ KeepsOperands s t ∧ KeepsRest s.popTurn t

/-- R49: the host's accesses are made in the order they were issued: a step makes the first one or none,
and only a step of the host makes one (the list is the model's own, log entry 1; that it survives a reset
is the model's choice, log entry 9). R3: no step changes the parameters. -/
def Obligations.HostAccessesInOrder : Prop :=
  ∀ s t : State, step s = .next t →
    (t.inputs = s.inputs ∨ mover s = some .host ∧ ∃ op, s.inputs = op :: t.inputs) ∧ t.cfg = s.cfg

/-- R36: acceptance, and nothing else changes. -/
def Obligations.CmdWriteAccepts : Prop :=
  ∀ (s : State) (v : Word), s.busy = false → hostWrite 0x00 4 v s = { s with pending := v, busy := true }

/-- R38 and R200: after a reset step every word of the window reads 0 and the hidden state is 0, whatever
was pending. (That the host's accesses stay is the model's choice, log entry 9, and not stated.) -/
def Obligations.ResetClearsEverything : Prop :=
  (∀ s : State, s.turns.head? = some .reset →
    ∃ t, step s = .next t ∧ (∀ off size, hostRead off size t = 0) ∧
      t.busy = false ∧ t.pending = 0 ∧ t.drop = false) ∧
  (∀ off size, hostRead off size State.reset = 0) ∧
    State.reset.busy = false ∧ State.reset.pending = 0 ∧ State.reset.drop = false

/-! ## The register window (spec/20_memory.md) -/

/-- R44: what an aligned 32-bit read of each offset returns, and that a read step changes no state of the
block, only the host's own record (log entry 1). -/
def Obligations.ReadReturns : Prop :=
  ∀ s : State,
    hostRead 0x00 4 s = 0 ∧
    (hostRead 0x04 4 s).toNat =
      (if s.busy then 1 else 0) + (if s.remain ≠ 0 then 2 else 0) + (if s.drop then 4 else 0) +
        (if s.errcode ≠ .ok then 8 else 0) ∧
    hostRead 0x08 4 s = s.errcode.bits.zeroExtend 32 ∧ hostRead 0x0C 4 s = s.lastcmd ∧
    (∀ i : Fin 4, hostRead (BitVec.ofNat 8 (0x10 + 4 * i.val)) 4 s = s.key[i] ∧
      hostRead (BitVec.ofNat 8 (0x20 + 4 * i.val)) 4 s = s.din[i] ∧
      hostRead (BitVec.ofNat 8 (0x30 + 4 * i.val)) 4 s = s.dout[i] ∧
      hostRead (BitVec.ofNat 8 (0x70 + 4 * i.val)) 4 s = s.subkey[i]) ∧
    hostRead 0x40 4 s = s.tbegin.extractLsb' 0 32 ∧ hostRead 0x44 4 s = s.tbegin.extractLsb' 32 32 ∧
    hostRead 0x48 4 s = s.tend.extractLsb' 0 32 ∧ hostRead 0x4C 4 s = s.tend.extractLsb' 32 32 ∧
    hostRead 0x50 4 s = s.jval.extractLsb' 0 32 ∧ hostRead 0x54 4 s = s.jval.extractLsb' 32 32 ∧
    hostRead 0x58 4 s = s.jcur.extractLsb' 0 32 ∧ hostRead 0x5C 4 s = s.jcur.extractLsb' 32 32 ∧
    hostRead 0x60 4 s = s.jlast.extractLsb' 0 32 ∧ hostRead 0x64 4 s = s.jlast.extractLsb' 32 32 ∧
    hostRead 0x68 4 s = s.remain ∧ hostRead 0x6C 4 s = 0 ∧
    (∀ i : Fin 16, hostRead (BitVec.ofNat 8 (0x80 + 4 * i.val)) 4 s = s.msg[i]) ∧
    (∀ i : Fin 8, hostRead (BitVec.ofNat 8 (0xC0 + 4 * i.val)) 4 s = s.dk[i] ∧
      hostRead (BitVec.ofNat 8 (0xE0 + 4 * i.val)) 4 s = 0) ∧
    (∀ off size rest, mover s = some .host → s.inputs = .read (busAddress s.cfg off) size :: rest →
      step s = .next { s with
        turns := s.turns.tail, inputs := rest, reads := hostRead off size s :: s.reads })

/-- R41: byte `k` of a buffer is the byte at bits `8*(k mod 4)` of the word read at `4*(k div 4)`, and a
64-bit register is its HI word before its LO word, LO at the lower offset. -/
def Obligations.ByteOrderOfBuffers : Prop :=
  ∀ s : State,
    (∀ k : Fin 16,
      (bytesOf s.key)[k] = (hostRead (BitVec.ofNat 8 (0x10 + 4 * (k.val / 4))) 4 s).extractLsb' (8 * (k.val % 4)) 8 ∧
      (bytesOf s.din)[k] = (hostRead (BitVec.ofNat 8 (0x20 + 4 * (k.val / 4))) 4 s).extractLsb' (8 * (k.val % 4)) 8 ∧
      (bytesOf s.dout)[k] = (hostRead (BitVec.ofNat 8 (0x30 + 4 * (k.val / 4))) 4 s).extractLsb' (8 * (k.val % 4)) 8 ∧
      (bytesOf s.subkey)[k] =
        (hostRead (BitVec.ofNat 8 (0x70 + 4 * (k.val / 4))) 4 s).extractLsb' (8 * (k.val % 4)) 8) ∧
    (∀ k : Fin 64, (bytesOf s.msg)[k] =
      (hostRead (BitVec.ofNat 8 (0x80 + 4 * (k.val / 4))) 4 s).extractLsb' (8 * (k.val % 4)) 8) ∧
    (∀ k : Fin 32, (bytesOf s.dk)[k] =
      (hostRead (BitVec.ofNat 8 (0xC0 + 4 * (k.val / 4))) 4 s).extractLsb' (8 * (k.val % 4)) 8) ∧
    s.tbegin = hostRead 0x44 4 s ++ hostRead 0x40 4 s ∧ s.tend = hostRead 0x4C 4 s ++ hostRead 0x48 4 s ∧
    s.jval = hostRead 0x54 4 s ++ hostRead 0x50 4 s ∧ s.jcur = hostRead 0x5C 4 s ++ hostRead 0x58 4 s ∧
    s.jlast = hostRead 0x64 4 s ++ hostRead 0x60 4 s

/-- R43: an access of another size or at an unaligned offset is malformed: a read returns 0, a write is
discarded and sets DROP. -/
def Obligations.MalformedAccess : Prop :=
  ∀ (s : State) (off : Offset) (size : Nat) (v : Word), (size ≠ 4 ∨ off.extractLsb' 0 2 ≠ 0) →
    hostRead off size s = 0 ∧ hostWrite off size v s = { s with drop := true }

/-- R45, with R20 for STATUS: the write lock while busy; no write then changes an operand register. -/
def Obligations.WriteLockWhileBusy : Prop :=
  (∀ (s : State) (off : Offset) (v : Word), s.busy = true → off.toNat % 4 = 0 → off ≠ 0x04 →
    hostWrite off 4 v s = { s with drop := true }) ∧
  (∀ (s : State) (v : Word), hostWrite 0x04 4 v s = if v.getLsbD 2 then { s with drop := false } else s) ∧
  (∀ (s : State) (off : Offset) (size : Nat) (v : Word), s.busy = true →
    KeepsOperands s (hostWrite off size v s) ∧ KeepsResults s (hostWrite off size v s) ∧
      (hostWrite off size v s).pending = s.pending ∧ (hostWrite off size v s).busy = true)

/-- R46: writes to ERRCODE, LASTCMD, DOUT, JCUR, JLAST, REMAIN, SUBKEY, DK and the reserved offsets. -/
def Obligations.ReadOnlyWriteDropped : Prop :=
  ∀ (s : State) (off : Offset) (v : Word), s.busy = false → off.toNat % 4 = 0 →
    (0x08 ≤ off.toNat ∧ off.toNat < 0x10 ∨ 0x30 ≤ off.toNat ∧ off.toNat < 0x40 ∨
      0x58 ≤ off.toNat ∧ off.toNat < 0x80 ∨ 0xC0 ≤ off.toNat) →
    hostWrite off 4 v s = { s with drop := true }

/-- R47 for the RW words: the word written is the word a later read returns, every other word reads as
before, and the generator, the other result registers and the hidden state stay. And R49: the host's step
on a write of any size at any offset of the window is that write (the turns and the list of accesses are
the model's own, log entry 1). -/
def Obligations.OperandWriteStores : Prop :=
  (∀ (s : State) (off : Offset) (v : Word), s.busy = false → off.toNat % 4 = 0 →
    (0x10 ≤ off.toNat ∧ off.toNat < 0x30 ∨ 0x40 ≤ off.toNat ∧ off.toNat < 0x58 ∨
      0x80 ≤ off.toNat ∧ off.toNat < 0xC0) →
    hostRead off 4 (hostWrite off 4 v s) = v ∧
    (∀ off' size', off' ≠ off → hostRead off' size' (hostWrite off 4 v s) = hostRead off' size' s) ∧
    KeepsGenerator s (hostWrite off 4 v s) ∧ KeepsRest s (hostWrite off 4 v s) ∧
    (hostWrite off 4 v s).busy = false) ∧
  (∀ (s : State) (off : Offset) (size : Nat) (v : Word) (rest : List HostOp),
    mover s = some .host → s.inputs = .write (busAddress s.cfg off) size v :: rest →
    step s = .next { hostWrite off size v s with turns := s.turns.tail, inputs := rest })

/-- R48: every write but an accepted CMD write is idempotent; a second CMD write finds the block busy, so
it is discarded and sets DROP. -/
def Obligations.WriteIdempotence : Prop :=
  (∀ (s : State) (off : Offset) (size : Nat) (v : Word),
    (s.busy = true ∨ off ≠ 0x00 ∨ size ≠ 4) →
    hostWrite off size v (hostWrite off size v s) = hostWrite off size v s) ∧
  (∀ (s : State) (v : Word), s.busy = false →
    hostWrite 0x00 4 v (hostWrite 0x00 4 v s) = { s with pending := v, busy := true, drop := true })

/-- R20 and R185 over whole steps: DROP, once set, falls only by a reset or by an aligned 32-bit write to
STATUS with bit 2 set. -/
def Obligations.DropIsSticky : Prop :=
  ∀ s t : State, step s = .next t → s.drop = true → t.drop = false →
    mover s = some .reset ∨
    (mover s = some .host ∧ ∃ v rest, s.inputs = .write (busAddress s.cfg 0x04) 4 v :: rest ∧
      v.getLsbD 2 = true)

/-- R40: an access outside the window does not reach the block: only the host's own record of accesses
moves on (log entry 4). -/
def Obligations.OutsideWindowIgnored : Prop :=
  ∀ (s : State) (addr size : Nat) (v : Word) (rest : List HostOp), mover s = some .host →
    (addr < s.cfg.base ∨ s.cfg.base + 256 ≤ addr) →
    (s.inputs = .read addr size :: rest ∨ s.inputs = .write addr size v :: rest) →
    step s = .next { s with turns := s.turns.tail, inputs := rest }

/-! ## Commands: what each does when it completes, and its frame -/

/-- R144: NOP, its one word, and that every other word with OP = 0x00 completes with ERR_ILLEGAL. -/
def Obligations.NopCompletes : Prop :=
  (∀ s : State, ∃ t, exec .nop s = .next t ∧ CompletedWith .ok s t ∧ KeepsOperands s t ∧
    KeepsGenerator s t ∧ KeepsResults s t ∧ KeepsRest s t) ∧
  (∀ w : Word, decode w = .ok .nop ↔ w = 0x00000000) ∧
  (∀ s : State, s.pending.extractLsb' 0 8 = 0x00 → s.pending ≠ 0x00000000 →
    ∃ t, engineMove s = .next t ∧ t.errcode = .illegal)

/-- ENCRYPT (R100): the bytes of DOUT are AES128 of the bytes of KEY and DIN, and nothing else but the
completion happens. -/
def Obligations.EncryptCompletes : Prop :=
  ∀ s : State, ∃ t, exec .encrypt s = .next t ∧
    bytesOf t.dout = aes128 (bytesOf s.key) (bytesOf s.din) ∧ CompletedWith .ok s t ∧
    KeepsOperands s t ∧ KeepsGenerator s t ∧ KeepsRest s t ∧
    t.din = s.din ∧ t.jval = s.jval ∧ t.dk = s.dk

/-- HKDF (R120) for 1 <= L <= 32 and M <= 64: DK is the L bytes of R119's HKDF of KEY and the first M
bytes of MSG, then zero bytes. -/
def Obligations.HkdfCompletes : Prop :=
  ∀ (s : State) (l m : Nat), 1 ≤ l → l ≤ 32 → m ≤ 64 →
    ∃ t, exec (.hkdf l m) s = .next t ∧
      (bytesOf t.dk).toList =
        ((hmac (hmac [] (bytesOf s.key).toList).toList
          ((bytesOf s.msg).toList.take m ++ [0x01])).toList.take l) ++ List.replicate (32 - l) 0 ∧
      CompletedWith .ok s t ∧ KeepsOperands s t ∧ KeepsGenerator s t ∧ KeepsRest s t ∧
      t.din = s.din ∧ t.dout = s.dout ∧ t.jval = s.jval

/-- HMAC (R121) for M <= 64: DK is HMAC of KEY and the first M bytes of MSG. -/
def Obligations.HmacCompletes : Prop :=
  ∀ (s : State) (m : Nat), m ≤ 64 →
    ∃ t, exec (.hmac m) s = .next t ∧
      bytesOf t.dk = hmac (bytesOf s.key).toList ((bytesOf s.msg).toList.take m) ∧
      CompletedWith .ok s t ∧ KeepsOperands s t ∧ KeepsGenerator s t ∧ KeepsRest s t ∧
      t.din = s.din ∧ t.dout = s.dout ∧ t.jval = s.jval

/-- R120 and R121: HKDF and HMAC with a byte count that fits its field (R62) and is out of range end with
ERR_FIELD and leave DK and every other register alone. -/
def Obligations.FieldErrors : Prop :=
  ∀ (s : State) (i : Instr), i.wellFormed = true →
    ((∃ l m, i = .hkdf l m ∧ (l < 1 ∨ 32 < l ∨ 64 < m)) ∨ (∃ m, i = .hmac m ∧ 64 < m)) →
    ∃ t, exec i s = .next t ∧ CompletedWith .field s t ∧ KeepsOperands s t ∧ KeepsGenerator s t ∧
      KeepsResults s t ∧ KeepsRest s t

/-- INTERVAL (R142): JVAL, read as a signed number, is the floor of the selected time by 600. -/
def Obligations.IntervalCompletes : Prop :=
  ∀ (s : State) (tsel : TimeSel), ∃ t, exec (.interval tsel) s = .next t ∧
    s64 t.jval = Int.fdiv (match tsel with | .timeBegin => s64 s.tbegin | .timeEnd => s64 s.tend) 600 ∧
    CompletedWith .ok s t ∧ KeepsOperands s t ∧ KeepsGenerator s t ∧ KeepsRest s t ∧
    t.din = s.din ∧ t.dout = s.dout ∧ t.dk = s.dk

/-- PAD (R143) on an interval number that fits 32 unsigned bits. -/
def Obligations.PadCompletes : Prop :=
  ∀ s : State, 0 ≤ s64 s.jval → s64 s.jval ≤ 4294967295 →
    ∃ t, exec .pad s = .next t ∧ bytesOf t.din = padBlock (s64 s.jval) ∧ CompletedWith .ok s t ∧
      KeepsOperands s t ∧ KeepsGenerator s t ∧ KeepsRest s t ∧
      t.dout = s.dout ∧ t.jval = s.jval ∧ t.dk = s.dk

/-- PAD (R143) on any other interval number: ERR_RANGE, DIN unchanged. -/
def Obligations.PadRangeError : Prop :=
  ∀ s : State, (s64 s.jval < 0 ∨ 4294967295 < s64 s.jval) →
    ∃ t, exec .pad s = .next t ∧ CompletedWith .range s t ∧ KeepsOperands s t ∧ KeepsGenerator s t ∧
      KeepsResults s t ∧ KeepsRest s t

/-- RPI_START (R162) on a range within the cap that is empty or lies in [0, 2^32-1]. -/
def Obligations.RpiStartCompletes : Prop :=
  ∀ (s : State) (jB jE : Int), jB = Int.fdiv (s64 s.tbegin) 600 → jE = Int.fdiv (s64 s.tend) 600 →
    jE - jB ≤ s.cfg.cap.val → (jE < jB ∨ 0 ≤ jB ∧ jE ≤ 4294967295) →
    ∃ t, exec .rpiStart s = .next t ∧
      (bytesOf t.subkey).toList = hkdf (bytesOf s.key).toList [0x45, 0x4e, 0x2d, 0x52, 0x50, 0x49, 0x4b] 16 ∧
      s64 t.jcur = jB ∧ s64 t.jlast = jE ∧ (t.remain.toNat : Int) = max 0 (jE - jB + 1) ∧
      CompletedWith .ok s t ∧ KeepsOperands s t ∧ KeepsResults s t ∧ KeepsRest s t

/-- R165 (the checks are R162's, LIMIT before RANGE as R183 says): a failed RPI_START writes REMAIN <- 0
and nothing else, so no identifier is left to produce; a word with OP = 0x06 that is not RPI_START
leaves REMAIN alone. -/
def Obligations.RpiStartFails : Prop :=
  (∀ (s : State) (jB jE : Int), jB = Int.fdiv (s64 s.tbegin) 600 → jE = Int.fdiv (s64 s.tend) 600 →
    (s.cfg.cap.val < jE - jB ∨ jB ≤ jE ∧ (jB < 0 ∨ 4294967295 < jE)) →
    ∃ t, exec .rpiStart s = .next t ∧
      CompletedWith (if s.cfg.cap.val < jE - jB then .limit else .range) s t ∧
      t.remain = 0 ∧ upcoming t = [] ∧ t.subkey = s.subkey ∧ t.jcur = s.jcur ∧ t.jlast = s.jlast ∧
      KeepsOperands s t ∧ KeepsResults s t ∧ KeepsRest s t) ∧
  (∀ s : State, s.pending.extractLsb' 0 8 = 0x06 → s.pending ≠ 0x00000006 →
    ∃ t, engineMove s = .next t ∧ t.errcode = .illegal ∧ t.remain = s.remain)

/-- RPI_NEXT (R163) with identifiers left, in a state that keeps R35. -/
def Obligations.RpiNextCompletes : Prop :=
  ∀ s : State, Inv s → s.remain ≠ 0 →
    ∃ t, exec .rpiNext s = .next t ∧
      bytesOf t.dout = aes128 (bytesOf s.subkey) (padBlock (s64 s.jcur)) ∧
      s64 t.jcur = s64 s.jcur + 1 ∧ t.remain.toNat + 1 = s.remain.toNat ∧
      t.subkey = s.subkey ∧ t.jlast = s.jlast ∧ CompletedWith .ok s t ∧ KeepsOperands s t ∧
      KeepsRest s t ∧ t.din = s.din ∧ t.jval = s.jval ∧ t.dk = s.dk

/-- RPI_NEXT (R163) with REMAIN = 0: ERR_SEQ, nothing else written. -/
def Obligations.RpiNextSeqError : Prop :=
  ∀ s : State, s.remain = 0 →
    ∃ t, exec .rpiNext s = .next t ∧ CompletedWith .seq s t ∧ KeepsOperands s t ∧ KeepsGenerator s t ∧
      KeepsResults s t ∧ KeepsRest s t

/-- R180: which code a completion ends with and why, and the number ERRCODE then reads. -/
def Obligations.ResultCodeCauses : Prop :=
  ∀ s t : State, engineMove s = .next t →
    (t.errcode = .illegal ↔ ∀ i : Instr, decode s.pending ≠ .ok i) ∧
    (t.errcode = .field ↔
      (∃ l m, decode s.pending = .ok (.hkdf l m) ∧ (l < 1 ∨ 32 < l ∨ 64 < m)) ∨
      (∃ m, decode s.pending = .ok (.hmac m) ∧ 64 < m)) ∧
    (t.errcode = .limit ↔
      decode s.pending = .ok .rpiStart ∧ s.cfg.cap.val < interval (s64 s.tend) - interval (s64 s.tbegin)) ∧
    (t.errcode = .range ↔
      (decode s.pending = .ok .pad ∧ (s64 s.jval < 0 ∨ 4294967295 < s64 s.jval)) ∨
      (decode s.pending = .ok .rpiStart ∧
        interval (s64 s.tend) - interval (s64 s.tbegin) ≤ s.cfg.cap.val ∧
        interval (s64 s.tbegin) ≤ interval (s64 s.tend) ∧
        (interval (s64 s.tbegin) < 0 ∨ 4294967295 < interval (s64 s.tend)))) ∧
    (t.errcode = .seq ↔ decode s.pending = .ok .rpiNext ∧ s.remain = 0) ∧
    (hostRead 0x08 4 t).toNat =
      (match t.errcode with
      | .ok => 0 | .illegal => 1 | .field => 2 | .range => 3 | .limit => 4 | .seq => 5)

/-- R182: a completion with a nonzero code writes ERRCODE and LASTCMD and no result or operand register;
an RPI_START that fails with code 3 or 4 also writes REMAIN <- 0, and nothing else does. -/
def Obligations.FailureWritesNoResult : Prop :=
  ∀ s t : State, engineMove s = .next t → t.errcode ≠ .ok →
    t.lastcmd = s.pending ∧ KeepsOperands s t ∧ KeepsResults s t ∧ KeepsRest s t ∧
    t.subkey = s.subkey ∧ t.jcur = s.jcur ∧ t.jlast = s.jlast ∧
    (decode s.pending = .ok .rpiStart ∧ (t.errcode = .range ∨ t.errcode = .limit) → t.remain = 0) ∧
    (¬ (decode s.pending = .ok .rpiStart ∧ (t.errcode = .range ∨ t.errcode = .limit)) → t.remain = s.remain)

/-- The frame of every command in the window's own terms: an access at an offset outside its result
registers, STATUS, ERRCODE and LASTCMD reads after the completion what it read before (R37, R182). -/
def Obligations.CommandFrameInWindow : Prop :=
  ∀ (i : Instr) (s t : State), exec i s = .next t →
    ∀ (off : Offset) (size : Nat), commandWrites i off = false → hostRead off size t = hostRead off size s

/-! ## Whole-machine rules -/

/-- R35 (b) and (c) hold at reset. -/
def Obligations.InvAtReset : Prop := Inv State.reset

/-- R35 (b) and (c) are kept by every step, from every state that has them. -/
def Obligations.InvKeptByStep : Prop :=
  ∀ s t : State, Inv s → step s = .next t → Inv t

/-- R166: outside reset, RPI_START and RPI_NEXT no step changes the generator's state or what its
sequence has still to produce. -/
def Obligations.GeneratorIsolation : Prop :=
  ∀ s t : State, step s = .next t → mover s ≠ some .reset → completes s ≠ some .rpiStart →
    completes s ≠ some .rpiNext → KeepsGenerator s t ∧ upcoming t = upcoming s

/-- R23, R25, R26, R31, R32: a completion never writes KEY, TBEGIN, TEND or MSG, and a host access never
writes DOUT, DK, ERRCODE, LASTCMD or the generator. -/
def Obligations.WritersOfRegisters : Prop :=
  ∀ s t : State, step s = .next t →
    (mover s = some .engine → KeepsOperands s t) ∧
    (mover s = some .host → KeepsGenerator s t ∧ t.errcode = s.errcode ∧ t.lastcmd = s.lastcmd ∧
      t.dout = s.dout ∧ t.dk = s.dk)

/-- R204, from R45: while a command is pending no step of the host changes the command, its operands or
any result. -/
def Obligations.BusyHoldsOperands : Prop :=
  ∀ s t : State, s.busy = true → mover s = some .host → step s = .next t →
    t.busy = true ∧ t.pending = s.pending ∧ KeepsOperands s t ∧ KeepsResults s t ∧ KeepsGenerator s t

/-- R37 and R206: a pending command completes after finitely many steps, at most one more than there are
turns left (the model's own, log entry 1), unless a reset discards it. -/
def Obligations.PendingCommandCompletes : Prop :=
  ∀ s : State, s.busy = true → ∃ n, n ≤ s.turns.length + 1 ∧ ∃ t, core.run n s = .next t ∧
    t.busy = false ∧ (.reset ∉ s.turns → t.lastcmd = s.pending)

/-- R206: a host `WAIT` ends, for every choice of turns (the model's own, log entries 1 and 2),
resets among them: that the host's accesses survive a reset is the model's choice, log entry 9. -/
def Obligations.WaitEnds : Prop :=
  ∀ (s : State) (rest : List HostOp), s.inputs = .wait :: rest →
    ∃ n, n ≤ s.turns.length + 2 ∧ ∃ t, core.run n s = .next t ∧ t.inputs = rest ∧ t.busy = false

/-- R50, R51 and R206 for `EXEC w` (R70): from an idle block and without a reset, whatever the turns, the
word is accepted and completes exactly once, on the operands as they were; the block then differs
from that completion only in the host's own record (log entries 1 and 2). -/
def Obligations.ExecRunsCommandOnce : Prop :=
  ∀ (s : State) (w : Word) (rest : List HostOp), s.busy = false →
    s.inputs = hostExecWord s.cfg w ++ rest → .reset ∉ s.turns →
    ∃ n, n ≤ s.turns.length + 4 ∧ ∃ t u, core.run n s = .next t ∧ engineMove (s.accept w) = .next u ∧
      t = { u with inputs := rest, turns := t.turns, reads := t.reads }

/-! ## The generator (spec/43_sequence.md) -/

/-- R161: RPI_START and the RPI_NEXTs after it produce CS's `RollingIds`, one identifier at a time, however
the host and the engine interleave and whatever other commands and writes come between. -/
def Obligations.RollingIdsCorrespondence : Prop :=
  (∀ s t : State, exec .rpiStart s = .next t →
    match rollingIds s.cfg.cap.val (bytesOf s.key) (s64 s.tbegin) (s64 s.tend) with
    | .ok ids => t.errcode = .ok ∧ t.remain.toNat = ids.length ∧
        ∀ n u, undisturbed n t = true → core.run n t = .next u → ids = identifiers n t ++ upcoming u
    | .error .limit => t.errcode = .limit ∧
        ∀ n u, undisturbed n t = true → core.run n t = .next u → identifiers n t = [] ∧ u.remain = 0
    | .error .range => t.errcode = .range ∧
        ∀ n u, undisturbed n t = true → core.run n t = .next u → identifiers n t = [] ∧ u.remain = 0) ∧
  (∀ u v : State, completes u = some .rpiNext → step u = .next v →
    (upcoming u ≠ [] → v.errcode = .ok) ∧ (upcoming u = [] → v.errcode = .seq ∧ v.dout = u.dout))

/-- R167: an accepted RPI_START followed by RPI_NEXTs produces at most CAP + 1 identifiers. -/
def Obligations.SequenceBound : Prop :=
  ∀ s t : State, exec .rpiStart s = .next t → ∀ n, undisturbed n t = true →
    (identifiers n t).length ≤ s.cfg.cap.val + 1

/-- R163 and R166: RPI_NEXT reads no operand of the host and no other result register: states that agree
on SUBKEY, JCUR, REMAIN, and on nothing else, give the same position and code, and the same identifier in
DOUT if one is left; if none is, each keeps its own DOUT. -/
def Obligations.RpiNextReadsGeneratorOnly : Prop :=
  ∀ s s' t t' : State, s'.subkey = s.subkey → s'.jcur = s.jcur → s'.remain = s.remain →
    exec .rpiNext s = .next t → exec .rpiNext s' = .next t' →
    t'.jcur = t.jcur ∧ t'.remain = t.remain ∧ t'.errcode = t.errcode ∧
    (s.remain ≠ 0 → t'.dout = t.dout) ∧ (s.remain = 0 → t.dout = s.dout ∧ t'.dout = s'.dout)

/-! ## The functions (spec/40_cipher.md, spec/41_kdf.md, spec/42_interval_pad.md) -/

/-- R140: the interval clock is floor division by 600, monotone, exact on multiples, and a 64-bit time
has an interval number in the stated range. -/
def Obligations.IntervalClock : Prop :=
  (∀ t : Int, 600 * interval t ≤ t ∧ t < 600 * (interval t + 1)) ∧
  (∀ t t' : Int, t ≤ t' → interval t ≤ interval t') ∧ (∀ k : Int, interval (600 * k) = k) ∧
  (∀ t : Int, -9223372036854775808 ≤ t → t ≤ 9223372036854775807 →
    -15372286728091294 ≤ interval t ∧ interval t ≤ 15372286728091293)

/-- R141: the tag, six zero bytes and the little-endian number, which parses back to `j`. -/
def Obligations.PadLayout : Prop :=
  ∀ j : Int, 0 ≤ j → j ≤ 4294967295 →
    (padBlock j).toList.take 12 = [0x45, 0x4e, 0x2d, 0x52, 0x50, 0x49, 0, 0, 0, 0, 0, 0] ∧
    (∀ k : Fin 4, ((padBlock j)[12 + k.val].toNat : Int) = j / 256 ^ k.val % 256) ∧
    ((padBlock j)[12].toNat + 256 * (padBlock j)[13].toNat + 65536 * (padBlock j)[14].toNat +
      16777216 * (padBlock j)[15].toNat : Int) = j

/-- R85 to R88, lane by lane. -/
def Obligations.AesRoundSteps : Prop :=
  ∀ (s rk : Block) (r c : Fin 4),
    lane (subBytes s) r c = sbox (lane s r c) ∧
    lane (shiftRows s) r c = s[r.val + 4 * ((c.val + r.val) % 4)] ∧
    lane (mixColumns s) 0 c =
      gmul (lane s 0 c) 2 ^^^ gmul (lane s 1 c) 3 ^^^ lane s 2 c ^^^ lane s 3 c ∧
    lane (mixColumns s) 1 c =
      lane s 0 c ^^^ gmul (lane s 1 c) 2 ^^^ gmul (lane s 2 c) 3 ^^^ lane s 3 c ∧
    lane (mixColumns s) 2 c =
      lane s 0 c ^^^ lane s 1 c ^^^ gmul (lane s 2 c) 2 ^^^ gmul (lane s 3 c) 3 ∧
    lane (mixColumns s) 3 c =
      gmul (lane s 0 c) 3 ^^^ lane s 1 c ^^^ lane s 2 c ^^^ gmul (lane s 3 c) 2 ∧
    lane (addRoundKey s rk) r c = lane s r c ^^^ rk[r.val + 4 * c.val]

/-- R89: the 44 words of the key expansion, `w[4r + i]` read as word `i` of the `r`-th round key. -/
def Obligations.AesKeyExpansion : Prop :=
  ∀ k : Block, ∃ w : Nat → KeyWord,
    (∀ (i : Fin 4) (b : Fin 4), (w i.val)[b] = k[4 * i.val + b.val]) ∧
    (∀ i, 4 ≤ i → i < 44 → i % 4 = 0 → ∀ b : Fin 4, (w i)[b] =
      (w (i - 4))[b] ^^^ sbox ((w (i - 1))[b + 1]) ^^^ (if b = 0 then rcon.getD (i / 4 - 1) 0 else 0)) ∧
    (∀ i, 4 ≤ i → i < 44 → i % 4 ≠ 0 → ∀ b : Fin 4, (w i)[b] = (w (i - 4))[b] ^^^ (w (i - 1))[b]) ∧
    (k :: roundKeys k).length = 11 ∧
    (∀ r rk, (k :: roundKeys k)[r]? = some rk → ∀ (i b : Fin 4), rk[4 * i.val + b.val] = (w (4 * r + i.val))[b])

/-- R111: the padded message, that its zero count is the least, and its split into at most three blocks
for the longest message the block hashes. -/
def Obligations.ShaPadding : Prop :=
  ∀ m : List Byte, ∃ k, shaPad m = m ++ [0x80] ++ List.replicate k 0 ++ be64 (BitVec.ofNat 64 (8 * m.length)) ∧
    (m.length + 1 + k + 8) % 64 = 0 ∧ (∀ k', k' < k → (m.length + 1 + k' + 8) % 64 ≠ 0) ∧
    (shaBlocks (shaPad m)).flatten = shaPad m ∧ (∀ b ∈ shaBlocks (shaPad m), b.length = 64) ∧
    (shaBlocks (shaPad m)).length = (m.length + 9 + k) / 64 ∧
    (m.length ≤ 129 → (shaBlocks (shaPad m)).length ≤ 3)

/-- R115: the message schedule of a 64-byte block. -/
def Obligations.ShaMessageSchedule : Prop :=
  ∀ b : List Byte, b.length = 64 →
    (shaSchedule b).length = 64 ∧
    (∀ t, t < 16 → (shaSchedule b).getD t 0 =
      b.getD (4 * t) 0 ++ b.getD (4 * t + 1) 0 ++ b.getD (4 * t + 2) 0 ++ b.getD (4 * t + 3) 0) ∧
    (∀ t, 16 ≤ t → t < 64 → (shaSchedule b).getD t 0 =
      shaSmallS1 ((shaSchedule b).getD (t - 2) 0) + (shaSchedule b).getD (t - 7) 0 +
        shaSmallS0 ((shaSchedule b).getD (t - 15) 0) + (shaSchedule b).getD (t - 16) 0)

/-- R118 and R119: zero bytes at the end of a key that fits 64 bytes do not change HMAC, so the empty salt
and 32 zero bytes give the same PRK. -/
def Obligations.HmacIgnoresKeyPadding : Prop :=
  (∀ (k m : List Byte) (z : Nat), k.length + z ≤ 64 → hmac (k ++ List.replicate z 0) m = hmac k m) ∧
  (∀ ikm : List Byte, hkdfExtract (List.replicate 32 0) ikm = hkdfExtract [] ikm)

/-- R31 and R120: HKDF and HMAC do not depend on the bytes of MSG at index M and above, and HKDF for L is
the first L bytes of HKDF for 32. -/
def Obligations.MsgBeyondLengthIgnored : Prop :=
  (∀ (s t t' : State) (msg' : Vector Word 16) (m : Nat) (i : Instr),
    (i = .hmac m ∨ ∃ l, i = .hkdf l m) →
    (∀ k : Fin 64, k.val < m → (bytesOf msg')[k] = (bytesOf s.msg)[k]) →
    exec i s = .next t → exec i (s.setMsg msg') = .next t' → t'.dk = t.dk ∧ t'.errcode = t.errcode) ∧
  (∀ (ikm info : List Byte) (l : Nat), l ≤ 32 → hkdf ikm info l = (hkdf ikm info 32).take l)

/-- R91: the initial AddRoundKey, nine full rounds, and the last round without MixColumns, on the states
`st r` after round `r` and the round keys `rk r` of R89. -/
def Obligations.AesCipherRounds : Prop :=
  ∀ k p : Block, ∃ rk st : Nat → Block,
    (∀ r, r ≤ 10 → (k :: roundKeys k)[r]? = some (rk r)) ∧
    st 0 = addRoundKey p (rk 0) ∧
    (∀ r, 1 ≤ r → r ≤ 9 → st r = addRoundKey (mixColumns (shiftRows (subBytes (st (r - 1))))) (rk r)) ∧
    aes128 k p = addRoundKey (shiftRows (subBytes (st 9))) (rk 10)

/-- R114 and R116: the word functions, and the 64 rounds on `v t = (a,b,c,d,e,f,g,h)` whose result is added
to the hash state. -/
def Obligations.ShaCompression : Prop :=
  (∀ x y z : Word, shaCh x y z = (x &&& y) ^^^ (~~~x &&& z) ∧
    shaMaj x y z = (x &&& y) ^^^ (x &&& z) ^^^ (y &&& z) ∧
    shaBigS0 x = x.rotateRight 2 ^^^ x.rotateRight 13 ^^^ x.rotateRight 22 ∧
    shaBigS1 x = x.rotateRight 6 ^^^ x.rotateRight 11 ^^^ x.rotateRight 25 ∧
    shaSmallS0 x = x.rotateRight 7 ^^^ x.rotateRight 18 ^^^ (x >>> 3) ∧
    shaSmallS1 x = x.rotateRight 17 ^^^ x.rotateRight 19 ^^^ (x >>> 10)) ∧
  ∀ (h : HashState) (b : List Byte), b.length = 64 → ∃ (v : Nat → HashState) (T1 T2 : Nat → Word), v 0 = h ∧
    (∀ t, t < 64 →
      T1 t = (v t)[7] + shaBigS1 (v t)[4] + shaCh (v t)[4] (v t)[5] (v t)[6] + shaK.getD t 0 +
        (shaSchedule b).getD t 0 ∧
      T2 t = shaBigS0 (v t)[0] + shaMaj (v t)[0] (v t)[1] (v t)[2] ∧
      v (t + 1) = #v[T1 t + T2 t, (v t)[0], (v t)[1], (v t)[2], (v t)[3] + T1 t, (v t)[4], (v t)[5], (v t)[6]]) ∧
    ∀ i : Fin 8, (shaCompress h b)[i] = h[i] + (v 64)[i]

/-- R117: the hash states `H i` before block `i` of the padded message, from R112's H0 on, the big-endian
bytes of the last one, and the rule's example. -/
def Obligations.Sha256Composition : Prop :=
  (∀ m : List Byte, ∃ H : Nat → HashState,
    H 0 = #v[0x6a09e667, 0xbb67ae85, 0x3c6ef372, 0xa54ff53a, 0x510e527f, 0x9b05688c, 0x1f83d9ab, 0x5be0cd19] ∧
    (∀ i b, (shaBlocks (shaPad m))[i]? = some b → H (i + 1) = shaCompress (H i) b) ∧
    ∀ (i : Fin 8) (j : Fin 4), (sha256 m)[4 * i.val + j.val] =
      (H (shaBlocks (shaPad m)).length)[i].extractLsb' (8 * (3 - j.val)) 8) ∧
  (sha256 []).toList =
    [0xe3, 0xb0, 0xc4, 0x42, 0x98, 0xfc, 0x1c, 0x14, 0x9a, 0xfb, 0xf4, 0xc8, 0x99, 0x6f, 0xb9, 0x24] ++
    [0x27, 0xae, 0x41, 0xe4, 0x64, 0x9b, 0x93, 0x4c, 0xa4, 0x95, 0x99, 0x1b, 0x78, 0x52, 0xb8, 0x55]

/-- R118 and R119: HMAC as two hashes under the key padded to 64 bytes, and HKDF as the first `L` bytes of
one extract and one expand step. -/
def Obligations.HmacComposition : Prop :=
  (∀ k m : List Byte, ∃ k0 : List Byte, k0.length = 64 ∧
    (k.length ≤ 64 → k0 = k ++ List.replicate (64 - k.length) 0) ∧
    (64 < k.length → k0 = (sha256 k).toList ++ List.replicate 32 0) ∧
    hmac k m = sha256 (k0.map (fun b => b ^^^ 0x5c) ++ (sha256 (k0.map (fun b => b ^^^ 0x36) ++ m)).toList)) ∧
  (∀ (ikm info : List Byte) (l : Nat), 1 ≤ l → l ≤ 32 →
    hkdf ikm info l = (hmac (hmac [] ikm).toList (info ++ [0x01])).toList.take l ∧
    (hkdf ikm info l).length = l)
end

