-- ==== Sys2Proof/Laws/Bytes.lean ====
section
/-! SUPPORT. Byte views of words and buffers, and signed 64-bit values: the small lemmas of
Machine/Operands.lean and Machine/Clock.lean. -/

namespace Sys2Proof.Machine

/-! ## Bytes of words and of buffer registers (R41) -/

theorem getLsbD_wordOfBytes (b0 b1 b2 b3 : Byte) (i : Nat) :
    (wordOfBytes b0 b1 b2 b3).getLsbD i =
      if i < 8 then b0.getLsbD i else if i < 16 then b1.getLsbD (i - 8)
      else if i < 24 then b2.getLsbD (i - 16) else b3.getLsbD (i - 24) := by
  unfold wordOfBytes
  rw [BitVec.getLsbD_append, BitVec.getLsbD_append, BitVec.getLsbD_append]
  split_ifs <;> first | rfl | omega

theorem getLsbD_byteOfWord (w : Word) (k i : Nat) :
    (byteOfWord w k).getLsbD i = (decide (i < 8) && w.getLsbD (8 * k + i)) := by
  simp [byteOfWord]

/-- Byte `k` of a word built of four bytes. -/
theorem byteOfWord_wordOfBytes (b : Nat → Byte) (k : Nat) (hk : k < 4) :
    byteOfWord (wordOfBytes (b 0) (b 1) (b 2) (b 3)) k = b k := by
  apply BitVec.eq_of_getLsbD_eq
  intro i hi
  rw [getLsbD_byteOfWord, getLsbD_wordOfBytes]
  obtain rfl | rfl | rfl | rfl : k = 0 ∨ k = 1 ∨ k = 2 ∨ k = 3 := by omega
  · simp [hi]
  · rw [if_neg (by omega), if_pos (by omega)]
    simp [hi]
  · rw [if_neg (by omega), if_neg (by omega), if_pos (by omega)]
    simp [hi]
  · rw [if_neg (by omega), if_neg (by omega), if_neg (by omega)]
    simp [hi]

/-- A word is built of its four bytes. -/
theorem wordOfBytes_byteOfWord (w : Word) :
    wordOfBytes (byteOfWord w 0) (byteOfWord w 1) (byteOfWord w 2) (byteOfWord w 3) = w := by
  apply BitVec.eq_of_getLsbD_eq
  intro i hi
  simp only [getLsbD_wordOfBytes, getLsbD_byteOfWord]
  split_ifs with h1 h2 h3
  · simp [h1]
  · have : i - 8 < 8 := by omega
    have e : 8 * 1 + (i - 8) = i := by omega
    simp [this, e]
  · have : i - 16 < 8 := by omega
    have e : 8 * 2 + (i - 16) = i := by omega
    simp [this, e]
  · have : i - 24 < 8 := by omega
    have e : 8 * 3 + (i - 24) = i := by omega
    simp [this, e]

/-- Byte `k` of a buffer register is byte `k mod 4` of its word `k div 4` (R41). -/
theorem bytesOf_getElem {n : Nat} (r : Vector Word n) (k : Nat) (hk : k < 4 * n) :
    (bytesOf r)[k] = byteOfWord r[k / 4] (k % 4) := by
  simp [bytesOf]

theorem wordsOf_getElem {n : Nat} (b : Vector Byte (4 * n)) (i : Nat) (hi : i < n) :
    (wordsOf b)[i] = wordOfBytes b[4 * i] b[4 * i + 1] b[4 * i + 2] b[4 * i + 3] := by
  simp [wordsOf]

/-- Reading the bytes of a buffer register gives back the bytes written to it. -/
@[simp] theorem bytesOf_wordsOf {n : Nat} (b : Vector Byte (4 * n)) : bytesOf (wordsOf b) = b := by
  apply Vector.ext
  intro k hk
  rw [bytesOf_getElem, wordsOf_getElem]
  have h := byteOfWord_wordOfBytes (fun j => b.toList.getD (4 * (k / 4) + j) 0) (k % 4) (by omega)
  have e : 4 * (k / 4) + k % 4 = k := by omega
  have g : ∀ j (hj : j < 4 * n), b.toList.getD j 0 = b[j] := by
    intro j hj
    simp [List.getD_eq_getElem?_getD, hj]
  rw [← g (4 * (k / 4)), ← g (4 * (k / 4) + 1), ← g (4 * (k / 4) + 2), ← g (4 * (k / 4) + 3), ← g k hk]
  simpa [e] using h

/-- Writing back the bytes of a buffer register changes nothing. -/
@[simp] theorem wordsOf_bytesOf {n : Nat} (r : Vector Word n) : wordsOf (bytesOf r) = r := by
  apply Vector.ext
  intro i hi
  rw [wordsOf_getElem]
  simp only [bytesOf_getElem]
  have e0 : 4 * i / 4 = i := by omega
  have e1 : (4 * i + 1) / 4 = i := by omega
  have e2 : (4 * i + 2) / 4 = i := by omega
  have e3 : (4 * i + 3) / 4 = i := by omega
  have m0 : 4 * i % 4 = 0 := by omega
  have m1 : (4 * i + 1) % 4 = 1 := by omega
  have m2 : (4 * i + 2) % 4 = 2 := by omega
  have m3 : (4 * i + 3) % 4 = 3 := by omega
  simp only [e0, e1, e2, e3, m0, m1, m2, m3]
  exact wordOfBytes_byteOfWord r[i]

theorem zeroFill_getElem (n : Nat) (bs : List Byte) (k : Nat) (hk : k < n) :
    (zeroFill n bs)[k] = bs.getD k 0 := by
  simp [zeroFill]

/-! ## 64-bit registers (R4, R18, R41) -/

theorem getLsbD_dword (hi lo : Word) (i : Nat) :
    (dword hi lo).getLsbD i = if i < 32 then lo.getLsbD i else hi.getLsbD (i - 32) := by
  unfold dword
  rw [BitVec.getLsbD_append]

@[simp] theorem loWord_dword (hi lo : Word) : loWord (dword hi lo) = lo := by
  apply BitVec.eq_of_getLsbD_eq
  intro i h
  rw [loWord, BitVec.getLsbD_extractLsb', getLsbD_dword]
  simp [h]

@[simp] theorem hiWord_dword (hi lo : Word) : hiWord (dword hi lo) = hi := by
  apply BitVec.eq_of_getLsbD_eq
  intro i h
  rw [hiWord, BitVec.getLsbD_extractLsb', getLsbD_dword]
  simp [h]

@[simp] theorem dword_hiWord_loWord (x : DWord) : dword (hiWord x) (loWord x) = x := by
  apply BitVec.eq_of_getLsbD_eq
  intro i h
  simp only [getLsbD_dword, hiWord, loWord, BitVec.getLsbD_extractLsb']
  split_ifs with h'
  · simp [h']
  · have e : 32 + (i - 32) = i := by omega
    have l : i - 32 < 32 := by omega
    simp [e, l]

theorem s64_range (v : DWord) : -9223372036854775808 ≤ s64 v ∧ s64 v ≤ 9223372036854775807 := by
  have h1 := BitVec.le_toInt v
  have h2 := BitVec.toInt_lt (x := v)
  unfold s64
  omega

/-- Inside its range `u64` is the two's-complement pattern (R4). -/
theorem u64_eq {x : Int} (h1 : -9223372036854775808 ≤ x) (h2 : x ≤ 9223372036854775807) :
    u64 x = BitVec.ofInt 64 x := by
  simp [u64, h1, h2]

theorem s64_u64 {x : Int} (h1 : -9223372036854775808 ≤ x) (h2 : x ≤ 9223372036854775807) :
    s64 (u64 x) = x := by
  rw [u64_eq h1 h2, s64, BitVec.toInt_ofInt]
  apply Int.bmod_eq_of_le <;> omega

theorem u64_s64 (v : DWord) : u64 (s64 v) = v := by
  have ⟨h1, h2⟩ := s64_range v
  rw [u64_eq h1 h2, s64, BitVec.ofInt_toInt]

/-! ## The interval clock and the padded block (R140, R141) -/

/-- `Interval(t)` is the greatest `q` with `600 * q <= t` (R4, R140). -/
theorem interval_spec (t : Int) : 600 * interval t ≤ t ∧ t < 600 * interval t + 600 := by
  unfold interval intervalSeconds
  rw [Int.fdiv_eq_ediv_of_nonneg _ (by decide)]
  omega

theorem interval_eq_iff (t q : Int) : interval t = q ↔ 600 * q ≤ t ∧ t < 600 * q + 600 := by
  have := interval_spec t
  omega

/-- The interval number of a 64-bit time is a 64-bit number again (R140). -/
theorem s64_u64_interval (v : DWord) : s64 (u64 (interval (s64 v))) = interval (s64 v) := by
  have ⟨h1, h2⟩ := s64_range v
  have := interval_spec (s64 v)
  exact s64_u64 (by omega) (by omega)

theorem fitsPad_iff (j : Int) : fitsPad j = true ↔ 0 ≤ j ∧ j ≤ 4294967295 := by
  simp [fitsPad]

theorem padBlock_eq {j : Int} (h : fitsPad j = true) :
    padBlock j = tag ++ (.replicate 6 0 : Vector Byte 6) ++ le32 (BitVec.ofInt 32 j) := by
  simp [padBlock, h]

end Sys2Proof.Machine
end

