-- ==== Sys2Proof/Laws/Crypto.lean ====
section
/-! SUPPORT. The small lemmas of AES-128, SHA-256 and HMAC (Machine/Aes.lean, Sha256.lean, Kdf.lean). -/

namespace Sys2Proof.Machine

/-! ## AES-128 (spec/40_cipher.md) -/

/-- The lane of a state built lane by lane (R82). -/
@[simp] theorem lane_ofLanes (f : Fin 4 → Fin 4 → Byte) (r c : Fin 4) : lane (ofLanes f) r c = f r c := by
  simp only [lane, ofLanes, Vector.getElem_ofFn]
  congr 1 <;> (apply Fin.ext; simp) <;> omega

/-- A byte of four words put one after the other (R89's `RK_r`). -/
theorem getElem_fourWords (w0 w1 w2 w3 : KeyWord) (k : Nat) (hk : k < 16) :
    (w0 ++ w1 ++ w2 ++ w3 : Block)[k] =
      if h : k < 4 then w0[k] else if h : k < 8 then w1[k - 4] else if h : k < 12 then w2[k - 8]
      else w3[k - 12] := by
  have h : ∀ (j : Nat) (hj : j < 4 + 4 + 4 + 4), (w0 ++ w1 ++ w2 ++ w3)[j] =
      if h : j < 4 then w0[j] else if h : j < 8 then w1[j - 4] else if h : j < 12 then w2[j - 8]
      else w3[j - 12] := by
    intro j hj
    rw [Vector.getElem_append]
    split_ifs with h1 h2 h3 <;> first | omega | skip
    · rw [Vector.getElem_append, dif_pos (by omega), Vector.getElem_append, dif_pos h2]
    · rw [Vector.getElem_append, dif_pos (by omega), Vector.getElem_append, dif_neg h2]
    · rw [Vector.getElem_append, dif_neg (by omega)]
    · rfl
  exact h k hk

/-- The inverse of the affine map `sboxAffine`: a witness for `sbox_satisfies_R83`. -/
def sboxAffineInverse (c : Byte) : Byte := c.rotateLeft 1 ^^^ c.rotateLeft 3 ^^^ c.rotateLeft 6 ^^^ 0x05

/-- The S-box table is R83's S-box: `SBOX(a)` is the affine map of the inverse `b` of `a`, and of 0 for
`a = 0`. -/
theorem sbox_satisfies_R83 : ∀ a : Byte, ∃ b : Byte,
    (a = 0 → b = 0) ∧ (a ≠ 0 → gmul a b = 1) ∧ sbox a = sboxAffine b := by
  have h : ∀ a : Byte, (a = 0 → sboxAffineInverse (sbox a) = 0) ∧
      (a ≠ 0 → gmul a (sboxAffineInverse (sbox a)) = 1) ∧
      sbox a = sboxAffine (sboxAffineInverse (sbox a)) := by decide +kernel
  exact fun a => ⟨_, h a⟩

/-- Each round constant is `xtime` of the one before it, from 0x01 on (R90). -/
theorem rcon_xtime : rcon = (List.range 10).map fun i => xtimes i 0x01 := by decide +kernel

/-- The round keys after `rk` are as many as the round constants (R89). -/
@[simp] theorem length_roundKeysFrom (rk : Block) (rcs : List Byte) :
    (roundKeysFrom rk rcs).length = rcs.length := by
  induction rcs generalizing rk with
  | nil => rfl
  | cons rc rcs ih => simp [roundKeysFrom, ih]

/-! ## SHA-256 and HMAC (spec/41_kdf.md) -/

@[simp] theorem length_be32 (x : Word) : (be32 x).length = 4 := rfl

@[simp] theorem length_be64 (x : DWord) : (be64 x).length = 8 := rfl

/-- The length of a padded message (R111). -/
theorem length_shaPad (m : List Byte) : (shaPad m).length = m.length + 1 + shaPadLen m.length + 8 := by
  simp only [shaPad, List.length_append, List.length_cons, List.length_nil, List.length_replicate,
    length_be64]

/-- Four bytes make one word (R115). -/
theorem length_be32Words {n : Nat} : ∀ {b : List Byte}, b.length = 4 * n → (be32Words b).length = n := by
  induction n with
  | zero => intro b h; cases b <;> simp_all [be32Words]
  | succ n ih =>
    intro b h
    match b, h with
    | _ :: _ :: _ :: _ :: _, h => simp only [be32Words, List.length_cons] at h ⊢; rw [ih (by omega)]
    | [], h => simp at h
    | [_], h => simp at h; omega
    | [_, _], h => simp at h; omega
    | [_, _, _], h => simp at h; omega

/-- The schedule grows by as many words as are asked for (R115). -/
theorem length_extendSchedule (n : Nat) (ws : List Word) : (extendSchedule n ws).length = n + ws.length := by
  induction n generalizing ws with
  | zero => simp [extendSchedule]
  | succ n ih => rw [extendSchedule, ih, List.length_cons]; omega

/-- A block's schedule has 64 words (R115). -/
theorem length_shaSchedule {b : List Byte} (h : b.length = 64) : (shaSchedule b).length = 64 := by
  rw [shaSchedule, List.length_reverse, length_extendSchedule, List.length_reverse,
    length_be32Words (n := 16) (by omega)]

/-- There is one constant for each round (R113). -/
theorem length_shaK : shaK.length = 64 := by decide

/-- The padded key of HMAC fills one block (R118). -/
theorem length_hmacKey0 (k : List Byte) : (hmacKey0 k).length = 64 := by
  unfold hmacKey0
  by_cases h : k.length > 64 <;> simp [h]
  omega

/-- HKDF gives as many bytes as are asked for (R119). -/
theorem length_hkdf (ikm info : List Byte) {l : Nat} (h : l ≤ 32) : (hkdf ikm info l).length = l := by
  simp [hkdf, hkdfExpand, h]

end Sys2Proof.Machine
end

