-- ==== Sys2Proof/Laws/Encoding.lean ====
section
/-! SUPPORT. What decoding can answer (spec/30_encoding.md R60 to R67). -/

namespace Sys2Proof

/-- The fields of a word as numbers (R60, R62). -/
theorem fields_toNat (w : Word) :
    opField w = w.toNat % 256 ∧ lenField w = w.toNat / 2 ^ 8 % 256 ∧ mlenField w = w.toNat / 2 ^ 16 % 256 := by
  simp [opField, lenField, mlenField, BitVec.extractLsb'_toNat, Nat.shiftRight_eq_div_pow]

/-- A mask that covers OP fixes OP (R65). -/
theorem opField_of_masked {w m p : Word} (hm : m &&& 0xFF = 0xFF) (h : w &&& m = p) :
    opField w = opField p := by
  subst h
  unfold opField
  congr 1
  apply BitVec.eq_of_getLsbD_eq
  intro i hi
  have hb := congrArg (fun x : Word => x.getLsbD i) hm
  have hf : (0xFF : Word).getLsbD i = true := by interval_cases i <;> rfl
  simp only [BitVec.getLsbD_and, hf, Bool.and_true] at hb
  simp [hi, hb]

/-- A word decodes to a command exactly when it matches a row, and then to that row's command with the
word's operands (R66). -/
theorem decode_ok_iff (w : Word) (i : Instr) :
    decode w = .ok i ↔ ∃ c : Op, w &&& c.mask = c.pattern ∧ c.build w = i := by
  constructor
  · intro h
    unfold decode at h
    split at h
    · cases h
    · split at h
      · exact ⟨_, ‹_›, by simpa using h⟩
      · cases h
  · rintro ⟨c, h, rfl⟩
    have hop : Op.ofField (opField w) = some c := by
      rw [opField_of_masked (by cases c <;> decide) h]
      cases c <;> decide
    simp [decode, hop, h]

/-- The row of a decoded command. -/
theorem op_build (c : Op) (w : Word) : (c.build w).op = c := by
  cases c <;> rfl

/-- A word that no command stands for is ILLEGAL by name (R67). -/
theorem decode_error {w : Word} (h : ∀ i, decode w ≠ .ok i) : ∃ e, decode w = .error e := by
  cases hd : decode w with
  | ok i => exact absurd hd (h i)
  | error e => exact ⟨e, rfl⟩

end Sys2Proof
end

