-- ==== Sys2Proof/Laws/PerInstr.lean ====
section
/-! SUPPORT. One lemma per command: its word keeps the fixed bits of its row of the opcode map
(spec/30_encoding.md R65). -/

namespace Sys2Proof.Laws.MatchesRow

/-- The word of a well-formed command has the fixed bits of its row. -/
def Statement (i : Instr) : Prop := i.wellFormed = true → encode i &&& i.op.mask = i.op.pattern

/-- A byte count that fits its field has no bit above it. -/
theorem getElem_of_fits {n : Nat} (h : fitsField n = true) {k : Nat} (hk : k < 32) (h8 : 8 ≤ k) :
    (BitVec.ofNat 32 n)[k] = false := by
  have h1 : n < 2 ^ 8 := by simpa [fitsField] using h
  rw [← BitVec.getLsbD_eq_getElem, BitVec.getLsbD_ofNat, Bool.and_eq_false_iff]
  right
  exact Nat.testBit_lt_two_pow (lt_of_lt_of_le h1 (Nat.pow_le_pow_right (by decide) h8))

theorem nop : Statement .nop := fun _ => by decide

theorem encrypt : Statement .encrypt := fun _ => by decide

theorem hkdf (len mlen : Nat) : Statement (.hkdf len mlen) := by
  intro h
  simp only [Instr.wellFormed, Bool.and_eq_true] at h
  have hl := @getElem_of_fits len h.1
  have hm := @getElem_of_fits mlen h.2
  apply BitVec.eq_of_getLsbD_eq
  intro j hj
  interval_cases j <;> simp [encode, Instr.op, Instr.fieldBits, Op.mask, Op.pattern, hl, hm]

theorem hmac (mlen : Nat) : Statement (.hmac mlen) := by
  intro h
  have hm := @getElem_of_fits mlen h
  apply BitVec.eq_of_getLsbD_eq
  intro j hj
  interval_cases j <;> simp [encode, Instr.op, Instr.fieldBits, Op.mask, Op.pattern, hm]

theorem interval (tsel : TimeSel) : Statement (.interval tsel) := fun _ => by cases tsel <;> decide

theorem pad : Statement .pad := fun _ => by decide

theorem rpiStart : Statement .rpiStart := fun _ => by decide

theorem rpiNext : Statement .rpiNext := fun _ => by decide

end Sys2Proof.Laws.MatchesRow
end

