-- ==== Sys2Proof/Laws/State.lean ====
section
/-! SUPPORT. What each field is after each update of the state (Machine/Ops.lean). -/

namespace Sys2Proof.Machine

variable (s : State)

@[simp] theorem State.setKey_errcode (v : Vector Word 4) : (s.setKey v).errcode = s.errcode := rfl
@[simp] theorem State.setKey_lastcmd (v : Vector Word 4) : (s.setKey v).lastcmd = s.lastcmd := rfl
@[simp] theorem State.setKey_key (v : Vector Word 4) : (s.setKey v).key = v := rfl
@[simp] theorem State.setKey_din (v : Vector Word 4) : (s.setKey v).din = s.din := rfl
@[simp] theorem State.setKey_dout (v : Vector Word 4) : (s.setKey v).dout = s.dout := rfl
@[simp] theorem State.setKey_tbegin (v : Vector Word 4) : (s.setKey v).tbegin = s.tbegin := rfl
@[simp] theorem State.setKey_tend (v : Vector Word 4) : (s.setKey v).tend = s.tend := rfl
@[simp] theorem State.setKey_jval (v : Vector Word 4) : (s.setKey v).jval = s.jval := rfl
@[simp] theorem State.setKey_jcur (v : Vector Word 4) : (s.setKey v).jcur = s.jcur := rfl
@[simp] theorem State.setKey_jlast (v : Vector Word 4) : (s.setKey v).jlast = s.jlast := rfl
@[simp] theorem State.setKey_remain (v : Vector Word 4) : (s.setKey v).remain = s.remain := rfl
@[simp] theorem State.setKey_subkey (v : Vector Word 4) : (s.setKey v).subkey = s.subkey := rfl
@[simp] theorem State.setKey_msg (v : Vector Word 4) : (s.setKey v).msg = s.msg := rfl
@[simp] theorem State.setKey_dk (v : Vector Word 4) : (s.setKey v).dk = s.dk := rfl
@[simp] theorem State.setKey_busy (v : Vector Word 4) : (s.setKey v).busy = s.busy := rfl
@[simp] theorem State.setKey_pending (v : Vector Word 4) : (s.setKey v).pending = s.pending := rfl
@[simp] theorem State.setKey_drop (v : Vector Word 4) : (s.setKey v).drop = s.drop := rfl
@[simp] theorem State.setKey_cfg (v : Vector Word 4) : (s.setKey v).cfg = s.cfg := rfl
@[simp] theorem State.setKey_inputs (v : Vector Word 4) : (s.setKey v).inputs = s.inputs := rfl
@[simp] theorem State.setKey_turns (v : Vector Word 4) : (s.setKey v).turns = s.turns := rfl
@[simp] theorem State.setKey_reads (v : Vector Word 4) : (s.setKey v).reads = s.reads := rfl

@[simp] theorem State.setDin_errcode (v : Vector Word 4) : (s.setDin v).errcode = s.errcode := rfl
@[simp] theorem State.setDin_lastcmd (v : Vector Word 4) : (s.setDin v).lastcmd = s.lastcmd := rfl
@[simp] theorem State.setDin_key (v : Vector Word 4) : (s.setDin v).key = s.key := rfl
@[simp] theorem State.setDin_din (v : Vector Word 4) : (s.setDin v).din = v := rfl
@[simp] theorem State.setDin_dout (v : Vector Word 4) : (s.setDin v).dout = s.dout := rfl
@[simp] theorem State.setDin_tbegin (v : Vector Word 4) : (s.setDin v).tbegin = s.tbegin := rfl
@[simp] theorem State.setDin_tend (v : Vector Word 4) : (s.setDin v).tend = s.tend := rfl
@[simp] theorem State.setDin_jval (v : Vector Word 4) : (s.setDin v).jval = s.jval := rfl
@[simp] theorem State.setDin_jcur (v : Vector Word 4) : (s.setDin v).jcur = s.jcur := rfl
@[simp] theorem State.setDin_jlast (v : Vector Word 4) : (s.setDin v).jlast = s.jlast := rfl
@[simp] theorem State.setDin_remain (v : Vector Word 4) : (s.setDin v).remain = s.remain := rfl
@[simp] theorem State.setDin_subkey (v : Vector Word 4) : (s.setDin v).subkey = s.subkey := rfl
@[simp] theorem State.setDin_msg (v : Vector Word 4) : (s.setDin v).msg = s.msg := rfl
@[simp] theorem State.setDin_dk (v : Vector Word 4) : (s.setDin v).dk = s.dk := rfl
@[simp] theorem State.setDin_busy (v : Vector Word 4) : (s.setDin v).busy = s.busy := rfl
@[simp] theorem State.setDin_pending (v : Vector Word 4) : (s.setDin v).pending = s.pending := rfl
@[simp] theorem State.setDin_drop (v : Vector Word 4) : (s.setDin v).drop = s.drop := rfl
@[simp] theorem State.setDin_cfg (v : Vector Word 4) : (s.setDin v).cfg = s.cfg := rfl
@[simp] theorem State.setDin_inputs (v : Vector Word 4) : (s.setDin v).inputs = s.inputs := rfl
@[simp] theorem State.setDin_turns (v : Vector Word 4) : (s.setDin v).turns = s.turns := rfl
@[simp] theorem State.setDin_reads (v : Vector Word 4) : (s.setDin v).reads = s.reads := rfl

@[simp] theorem State.setDout_errcode (v : Vector Word 4) : (s.setDout v).errcode = s.errcode := rfl
@[simp] theorem State.setDout_lastcmd (v : Vector Word 4) : (s.setDout v).lastcmd = s.lastcmd := rfl
@[simp] theorem State.setDout_key (v : Vector Word 4) : (s.setDout v).key = s.key := rfl
@[simp] theorem State.setDout_din (v : Vector Word 4) : (s.setDout v).din = s.din := rfl
@[simp] theorem State.setDout_dout (v : Vector Word 4) : (s.setDout v).dout = v := rfl
@[simp] theorem State.setDout_tbegin (v : Vector Word 4) : (s.setDout v).tbegin = s.tbegin := rfl
@[simp] theorem State.setDout_tend (v : Vector Word 4) : (s.setDout v).tend = s.tend := rfl
@[simp] theorem State.setDout_jval (v : Vector Word 4) : (s.setDout v).jval = s.jval := rfl
@[simp] theorem State.setDout_jcur (v : Vector Word 4) : (s.setDout v).jcur = s.jcur := rfl
@[simp] theorem State.setDout_jlast (v : Vector Word 4) : (s.setDout v).jlast = s.jlast := rfl
@[simp] theorem State.setDout_remain (v : Vector Word 4) : (s.setDout v).remain = s.remain := rfl
@[simp] theorem State.setDout_subkey (v : Vector Word 4) : (s.setDout v).subkey = s.subkey := rfl
@[simp] theorem State.setDout_msg (v : Vector Word 4) : (s.setDout v).msg = s.msg := rfl
@[simp] theorem State.setDout_dk (v : Vector Word 4) : (s.setDout v).dk = s.dk := rfl
@[simp] theorem State.setDout_busy (v : Vector Word 4) : (s.setDout v).busy = s.busy := rfl
@[simp] theorem State.setDout_pending (v : Vector Word 4) : (s.setDout v).pending = s.pending := rfl
@[simp] theorem State.setDout_drop (v : Vector Word 4) : (s.setDout v).drop = s.drop := rfl
@[simp] theorem State.setDout_cfg (v : Vector Word 4) : (s.setDout v).cfg = s.cfg := rfl
@[simp] theorem State.setDout_inputs (v : Vector Word 4) : (s.setDout v).inputs = s.inputs := rfl
@[simp] theorem State.setDout_turns (v : Vector Word 4) : (s.setDout v).turns = s.turns := rfl
@[simp] theorem State.setDout_reads (v : Vector Word 4) : (s.setDout v).reads = s.reads := rfl

@[simp] theorem State.setTbegin_errcode (v : DWord) : (s.setTbegin v).errcode = s.errcode := rfl
@[simp] theorem State.setTbegin_lastcmd (v : DWord) : (s.setTbegin v).lastcmd = s.lastcmd := rfl
@[simp] theorem State.setTbegin_key (v : DWord) : (s.setTbegin v).key = s.key := rfl
@[simp] theorem State.setTbegin_din (v : DWord) : (s.setTbegin v).din = s.din := rfl
@[simp] theorem State.setTbegin_dout (v : DWord) : (s.setTbegin v).dout = s.dout := rfl
@[simp] theorem State.setTbegin_tbegin (v : DWord) : (s.setTbegin v).tbegin = v := rfl
@[simp] theorem State.setTbegin_tend (v : DWord) : (s.setTbegin v).tend = s.tend := rfl
@[simp] theorem State.setTbegin_jval (v : DWord) : (s.setTbegin v).jval = s.jval := rfl
@[simp] theorem State.setTbegin_jcur (v : DWord) : (s.setTbegin v).jcur = s.jcur := rfl
@[simp] theorem State.setTbegin_jlast (v : DWord) : (s.setTbegin v).jlast = s.jlast := rfl
@[simp] theorem State.setTbegin_remain (v : DWord) : (s.setTbegin v).remain = s.remain := rfl
@[simp] theorem State.setTbegin_subkey (v : DWord) : (s.setTbegin v).subkey = s.subkey := rfl
@[simp] theorem State.setTbegin_msg (v : DWord) : (s.setTbegin v).msg = s.msg := rfl
@[simp] theorem State.setTbegin_dk (v : DWord) : (s.setTbegin v).dk = s.dk := rfl
@[simp] theorem State.setTbegin_busy (v : DWord) : (s.setTbegin v).busy = s.busy := rfl
@[simp] theorem State.setTbegin_pending (v : DWord) : (s.setTbegin v).pending = s.pending := rfl
@[simp] theorem State.setTbegin_drop (v : DWord) : (s.setTbegin v).drop = s.drop := rfl
@[simp] theorem State.setTbegin_cfg (v : DWord) : (s.setTbegin v).cfg = s.cfg := rfl
@[simp] theorem State.setTbegin_inputs (v : DWord) : (s.setTbegin v).inputs = s.inputs := rfl
@[simp] theorem State.setTbegin_turns (v : DWord) : (s.setTbegin v).turns = s.turns := rfl
@[simp] theorem State.setTbegin_reads (v : DWord) : (s.setTbegin v).reads = s.reads := rfl

@[simp] theorem State.setTend_errcode (v : DWord) : (s.setTend v).errcode = s.errcode := rfl
@[simp] theorem State.setTend_lastcmd (v : DWord) : (s.setTend v).lastcmd = s.lastcmd := rfl
@[simp] theorem State.setTend_key (v : DWord) : (s.setTend v).key = s.key := rfl
@[simp] theorem State.setTend_din (v : DWord) : (s.setTend v).din = s.din := rfl
@[simp] theorem State.setTend_dout (v : DWord) : (s.setTend v).dout = s.dout := rfl
@[simp] theorem State.setTend_tbegin (v : DWord) : (s.setTend v).tbegin = s.tbegin := rfl
@[simp] theorem State.setTend_tend (v : DWord) : (s.setTend v).tend = v := rfl
@[simp] theorem State.setTend_jval (v : DWord) : (s.setTend v).jval = s.jval := rfl
@[simp] theorem State.setTend_jcur (v : DWord) : (s.setTend v).jcur = s.jcur := rfl
@[simp] theorem State.setTend_jlast (v : DWord) : (s.setTend v).jlast = s.jlast := rfl
@[simp] theorem State.setTend_remain (v : DWord) : (s.setTend v).remain = s.remain := rfl
@[simp] theorem State.setTend_subkey (v : DWord) : (s.setTend v).subkey = s.subkey := rfl
@[simp] theorem State.setTend_msg (v : DWord) : (s.setTend v).msg = s.msg := rfl
@[simp] theorem State.setTend_dk (v : DWord) : (s.setTend v).dk = s.dk := rfl
@[simp] theorem State.setTend_busy (v : DWord) : (s.setTend v).busy = s.busy := rfl
@[simp] theorem State.setTend_pending (v : DWord) : (s.setTend v).pending = s.pending := rfl
@[simp] theorem State.setTend_drop (v : DWord) : (s.setTend v).drop = s.drop := rfl
@[simp] theorem State.setTend_cfg (v : DWord) : (s.setTend v).cfg = s.cfg := rfl
@[simp] theorem State.setTend_inputs (v : DWord) : (s.setTend v).inputs = s.inputs := rfl
@[simp] theorem State.setTend_turns (v : DWord) : (s.setTend v).turns = s.turns := rfl
@[simp] theorem State.setTend_reads (v : DWord) : (s.setTend v).reads = s.reads := rfl

@[simp] theorem State.setJval_errcode (v : DWord) : (s.setJval v).errcode = s.errcode := rfl
@[simp] theorem State.setJval_lastcmd (v : DWord) : (s.setJval v).lastcmd = s.lastcmd := rfl
@[simp] theorem State.setJval_key (v : DWord) : (s.setJval v).key = s.key := rfl
@[simp] theorem State.setJval_din (v : DWord) : (s.setJval v).din = s.din := rfl
@[simp] theorem State.setJval_dout (v : DWord) : (s.setJval v).dout = s.dout := rfl
@[simp] theorem State.setJval_tbegin (v : DWord) : (s.setJval v).tbegin = s.tbegin := rfl
@[simp] theorem State.setJval_tend (v : DWord) : (s.setJval v).tend = s.tend := rfl
@[simp] theorem State.setJval_jval (v : DWord) : (s.setJval v).jval = v := rfl
@[simp] theorem State.setJval_jcur (v : DWord) : (s.setJval v).jcur = s.jcur := rfl
@[simp] theorem State.setJval_jlast (v : DWord) : (s.setJval v).jlast = s.jlast := rfl
@[simp] theorem State.setJval_remain (v : DWord) : (s.setJval v).remain = s.remain := rfl
@[simp] theorem State.setJval_subkey (v : DWord) : (s.setJval v).subkey = s.subkey := rfl
@[simp] theorem State.setJval_msg (v : DWord) : (s.setJval v).msg = s.msg := rfl
@[simp] theorem State.setJval_dk (v : DWord) : (s.setJval v).dk = s.dk := rfl
@[simp] theorem State.setJval_busy (v : DWord) : (s.setJval v).busy = s.busy := rfl
@[simp] theorem State.setJval_pending (v : DWord) : (s.setJval v).pending = s.pending := rfl
@[simp] theorem State.setJval_drop (v : DWord) : (s.setJval v).drop = s.drop := rfl
@[simp] theorem State.setJval_cfg (v : DWord) : (s.setJval v).cfg = s.cfg := rfl
@[simp] theorem State.setJval_inputs (v : DWord) : (s.setJval v).inputs = s.inputs := rfl
@[simp] theorem State.setJval_turns (v : DWord) : (s.setJval v).turns = s.turns := rfl
@[simp] theorem State.setJval_reads (v : DWord) : (s.setJval v).reads = s.reads := rfl

@[simp] theorem State.setJcur_errcode (v : DWord) : (s.setJcur v).errcode = s.errcode := rfl
@[simp] theorem State.setJcur_lastcmd (v : DWord) : (s.setJcur v).lastcmd = s.lastcmd := rfl
@[simp] theorem State.setJcur_key (v : DWord) : (s.setJcur v).key = s.key := rfl
@[simp] theorem State.setJcur_din (v : DWord) : (s.setJcur v).din = s.din := rfl
@[simp] theorem State.setJcur_dout (v : DWord) : (s.setJcur v).dout = s.dout := rfl
@[simp] theorem State.setJcur_tbegin (v : DWord) : (s.setJcur v).tbegin = s.tbegin := rfl
@[simp] theorem State.setJcur_tend (v : DWord) : (s.setJcur v).tend = s.tend := rfl
@[simp] theorem State.setJcur_jval (v : DWord) : (s.setJcur v).jval = s.jval := rfl
@[simp] theorem State.setJcur_jcur (v : DWord) : (s.setJcur v).jcur = v := rfl
@[simp] theorem State.setJcur_jlast (v : DWord) : (s.setJcur v).jlast = s.jlast := rfl
@[simp] theorem State.setJcur_remain (v : DWord) : (s.setJcur v).remain = s.remain := rfl
@[simp] theorem State.setJcur_subkey (v : DWord) : (s.setJcur v).subkey = s.subkey := rfl
@[simp] theorem State.setJcur_msg (v : DWord) : (s.setJcur v).msg = s.msg := rfl
@[simp] theorem State.setJcur_dk (v : DWord) : (s.setJcur v).dk = s.dk := rfl
@[simp] theorem State.setJcur_busy (v : DWord) : (s.setJcur v).busy = s.busy := rfl
@[simp] theorem State.setJcur_pending (v : DWord) : (s.setJcur v).pending = s.pending := rfl
@[simp] theorem State.setJcur_drop (v : DWord) : (s.setJcur v).drop = s.drop := rfl
@[simp] theorem State.setJcur_cfg (v : DWord) : (s.setJcur v).cfg = s.cfg := rfl
@[simp] theorem State.setJcur_inputs (v : DWord) : (s.setJcur v).inputs = s.inputs := rfl
@[simp] theorem State.setJcur_turns (v : DWord) : (s.setJcur v).turns = s.turns := rfl
@[simp] theorem State.setJcur_reads (v : DWord) : (s.setJcur v).reads = s.reads := rfl

@[simp] theorem State.setJlast_errcode (v : DWord) : (s.setJlast v).errcode = s.errcode := rfl
@[simp] theorem State.setJlast_lastcmd (v : DWord) : (s.setJlast v).lastcmd = s.lastcmd := rfl
@[simp] theorem State.setJlast_key (v : DWord) : (s.setJlast v).key = s.key := rfl
@[simp] theorem State.setJlast_din (v : DWord) : (s.setJlast v).din = s.din := rfl
@[simp] theorem State.setJlast_dout (v : DWord) : (s.setJlast v).dout = s.dout := rfl
@[simp] theorem State.setJlast_tbegin (v : DWord) : (s.setJlast v).tbegin = s.tbegin := rfl
@[simp] theorem State.setJlast_tend (v : DWord) : (s.setJlast v).tend = s.tend := rfl
@[simp] theorem State.setJlast_jval (v : DWord) : (s.setJlast v).jval = s.jval := rfl
@[simp] theorem State.setJlast_jcur (v : DWord) : (s.setJlast v).jcur = s.jcur := rfl
@[simp] theorem State.setJlast_jlast (v : DWord) : (s.setJlast v).jlast = v := rfl
@[simp] theorem State.setJlast_remain (v : DWord) : (s.setJlast v).remain = s.remain := rfl
@[simp] theorem State.setJlast_subkey (v : DWord) : (s.setJlast v).subkey = s.subkey := rfl
@[simp] theorem State.setJlast_msg (v : DWord) : (s.setJlast v).msg = s.msg := rfl
@[simp] theorem State.setJlast_dk (v : DWord) : (s.setJlast v).dk = s.dk := rfl
@[simp] theorem State.setJlast_busy (v : DWord) : (s.setJlast v).busy = s.busy := rfl
@[simp] theorem State.setJlast_pending (v : DWord) : (s.setJlast v).pending = s.pending := rfl
@[simp] theorem State.setJlast_drop (v : DWord) : (s.setJlast v).drop = s.drop := rfl
@[simp] theorem State.setJlast_cfg (v : DWord) : (s.setJlast v).cfg = s.cfg := rfl
@[simp] theorem State.setJlast_inputs (v : DWord) : (s.setJlast v).inputs = s.inputs := rfl
@[simp] theorem State.setJlast_turns (v : DWord) : (s.setJlast v).turns = s.turns := rfl
@[simp] theorem State.setJlast_reads (v : DWord) : (s.setJlast v).reads = s.reads := rfl

@[simp] theorem State.setRemain_errcode (v : Word) : (s.setRemain v).errcode = s.errcode := rfl
@[simp] theorem State.setRemain_lastcmd (v : Word) : (s.setRemain v).lastcmd = s.lastcmd := rfl
@[simp] theorem State.setRemain_key (v : Word) : (s.setRemain v).key = s.key := rfl
@[simp] theorem State.setRemain_din (v : Word) : (s.setRemain v).din = s.din := rfl
@[simp] theorem State.setRemain_dout (v : Word) : (s.setRemain v).dout = s.dout := rfl
@[simp] theorem State.setRemain_tbegin (v : Word) : (s.setRemain v).tbegin = s.tbegin := rfl
@[simp] theorem State.setRemain_tend (v : Word) : (s.setRemain v).tend = s.tend := rfl
@[simp] theorem State.setRemain_jval (v : Word) : (s.setRemain v).jval = s.jval := rfl
@[simp] theorem State.setRemain_jcur (v : Word) : (s.setRemain v).jcur = s.jcur := rfl
@[simp] theorem State.setRemain_jlast (v : Word) : (s.setRemain v).jlast = s.jlast := rfl
@[simp] theorem State.setRemain_remain (v : Word) : (s.setRemain v).remain = v := rfl
@[simp] theorem State.setRemain_subkey (v : Word) : (s.setRemain v).subkey = s.subkey := rfl
@[simp] theorem State.setRemain_msg (v : Word) : (s.setRemain v).msg = s.msg := rfl
@[simp] theorem State.setRemain_dk (v : Word) : (s.setRemain v).dk = s.dk := rfl
@[simp] theorem State.setRemain_busy (v : Word) : (s.setRemain v).busy = s.busy := rfl
@[simp] theorem State.setRemain_pending (v : Word) : (s.setRemain v).pending = s.pending := rfl
@[simp] theorem State.setRemain_drop (v : Word) : (s.setRemain v).drop = s.drop := rfl
@[simp] theorem State.setRemain_cfg (v : Word) : (s.setRemain v).cfg = s.cfg := rfl
@[simp] theorem State.setRemain_inputs (v : Word) : (s.setRemain v).inputs = s.inputs := rfl
@[simp] theorem State.setRemain_turns (v : Word) : (s.setRemain v).turns = s.turns := rfl
@[simp] theorem State.setRemain_reads (v : Word) : (s.setRemain v).reads = s.reads := rfl

@[simp] theorem State.setSubkey_errcode (v : Vector Word 4) : (s.setSubkey v).errcode = s.errcode := rfl
@[simp] theorem State.setSubkey_lastcmd (v : Vector Word 4) : (s.setSubkey v).lastcmd = s.lastcmd := rfl
@[simp] theorem State.setSubkey_key (v : Vector Word 4) : (s.setSubkey v).key = s.key := rfl
@[simp] theorem State.setSubkey_din (v : Vector Word 4) : (s.setSubkey v).din = s.din := rfl
@[simp] theorem State.setSubkey_dout (v : Vector Word 4) : (s.setSubkey v).dout = s.dout := rfl
@[simp] theorem State.setSubkey_tbegin (v : Vector Word 4) : (s.setSubkey v).tbegin = s.tbegin := rfl
@[simp] theorem State.setSubkey_tend (v : Vector Word 4) : (s.setSubkey v).tend = s.tend := rfl
@[simp] theorem State.setSubkey_jval (v : Vector Word 4) : (s.setSubkey v).jval = s.jval := rfl
@[simp] theorem State.setSubkey_jcur (v : Vector Word 4) : (s.setSubkey v).jcur = s.jcur := rfl
@[simp] theorem State.setSubkey_jlast (v : Vector Word 4) : (s.setSubkey v).jlast = s.jlast := rfl
@[simp] theorem State.setSubkey_remain (v : Vector Word 4) : (s.setSubkey v).remain = s.remain := rfl
@[simp] theorem State.setSubkey_subkey (v : Vector Word 4) : (s.setSubkey v).subkey = v := rfl
@[simp] theorem State.setSubkey_msg (v : Vector Word 4) : (s.setSubkey v).msg = s.msg := rfl
@[simp] theorem State.setSubkey_dk (v : Vector Word 4) : (s.setSubkey v).dk = s.dk := rfl
@[simp] theorem State.setSubkey_busy (v : Vector Word 4) : (s.setSubkey v).busy = s.busy := rfl
@[simp] theorem State.setSubkey_pending (v : Vector Word 4) : (s.setSubkey v).pending = s.pending := rfl
@[simp] theorem State.setSubkey_drop (v : Vector Word 4) : (s.setSubkey v).drop = s.drop := rfl
@[simp] theorem State.setSubkey_cfg (v : Vector Word 4) : (s.setSubkey v).cfg = s.cfg := rfl
@[simp] theorem State.setSubkey_inputs (v : Vector Word 4) : (s.setSubkey v).inputs = s.inputs := rfl
@[simp] theorem State.setSubkey_turns (v : Vector Word 4) : (s.setSubkey v).turns = s.turns := rfl
@[simp] theorem State.setSubkey_reads (v : Vector Word 4) : (s.setSubkey v).reads = s.reads := rfl

@[simp] theorem State.setMsg_errcode (v : Vector Word 16) : (s.setMsg v).errcode = s.errcode := rfl
@[simp] theorem State.setMsg_lastcmd (v : Vector Word 16) : (s.setMsg v).lastcmd = s.lastcmd := rfl
@[simp] theorem State.setMsg_key (v : Vector Word 16) : (s.setMsg v).key = s.key := rfl
@[simp] theorem State.setMsg_din (v : Vector Word 16) : (s.setMsg v).din = s.din := rfl
@[simp] theorem State.setMsg_dout (v : Vector Word 16) : (s.setMsg v).dout = s.dout := rfl
@[simp] theorem State.setMsg_tbegin (v : Vector Word 16) : (s.setMsg v).tbegin = s.tbegin := rfl
@[simp] theorem State.setMsg_tend (v : Vector Word 16) : (s.setMsg v).tend = s.tend := rfl
@[simp] theorem State.setMsg_jval (v : Vector Word 16) : (s.setMsg v).jval = s.jval := rfl
@[simp] theorem State.setMsg_jcur (v : Vector Word 16) : (s.setMsg v).jcur = s.jcur := rfl
@[simp] theorem State.setMsg_jlast (v : Vector Word 16) : (s.setMsg v).jlast = s.jlast := rfl
@[simp] theorem State.setMsg_remain (v : Vector Word 16) : (s.setMsg v).remain = s.remain := rfl
@[simp] theorem State.setMsg_subkey (v : Vector Word 16) : (s.setMsg v).subkey = s.subkey := rfl
@[simp] theorem State.setMsg_msg (v : Vector Word 16) : (s.setMsg v).msg = v := rfl
@[simp] theorem State.setMsg_dk (v : Vector Word 16) : (s.setMsg v).dk = s.dk := rfl
@[simp] theorem State.setMsg_busy (v : Vector Word 16) : (s.setMsg v).busy = s.busy := rfl
@[simp] theorem State.setMsg_pending (v : Vector Word 16) : (s.setMsg v).pending = s.pending := rfl
@[simp] theorem State.setMsg_drop (v : Vector Word 16) : (s.setMsg v).drop = s.drop := rfl
@[simp] theorem State.setMsg_cfg (v : Vector Word 16) : (s.setMsg v).cfg = s.cfg := rfl
@[simp] theorem State.setMsg_inputs (v : Vector Word 16) : (s.setMsg v).inputs = s.inputs := rfl
@[simp] theorem State.setMsg_turns (v : Vector Word 16) : (s.setMsg v).turns = s.turns := rfl
@[simp] theorem State.setMsg_reads (v : Vector Word 16) : (s.setMsg v).reads = s.reads := rfl

@[simp] theorem State.setDk_errcode (v : Vector Word 8) : (s.setDk v).errcode = s.errcode := rfl
@[simp] theorem State.setDk_lastcmd (v : Vector Word 8) : (s.setDk v).lastcmd = s.lastcmd := rfl
@[simp] theorem State.setDk_key (v : Vector Word 8) : (s.setDk v).key = s.key := rfl
@[simp] theorem State.setDk_din (v : Vector Word 8) : (s.setDk v).din = s.din := rfl
@[simp] theorem State.setDk_dout (v : Vector Word 8) : (s.setDk v).dout = s.dout := rfl
@[simp] theorem State.setDk_tbegin (v : Vector Word 8) : (s.setDk v).tbegin = s.tbegin := rfl
@[simp] theorem State.setDk_tend (v : Vector Word 8) : (s.setDk v).tend = s.tend := rfl
@[simp] theorem State.setDk_jval (v : Vector Word 8) : (s.setDk v).jval = s.jval := rfl
@[simp] theorem State.setDk_jcur (v : Vector Word 8) : (s.setDk v).jcur = s.jcur := rfl
@[simp] theorem State.setDk_jlast (v : Vector Word 8) : (s.setDk v).jlast = s.jlast := rfl
@[simp] theorem State.setDk_remain (v : Vector Word 8) : (s.setDk v).remain = s.remain := rfl
@[simp] theorem State.setDk_subkey (v : Vector Word 8) : (s.setDk v).subkey = s.subkey := rfl
@[simp] theorem State.setDk_msg (v : Vector Word 8) : (s.setDk v).msg = s.msg := rfl
@[simp] theorem State.setDk_dk (v : Vector Word 8) : (s.setDk v).dk = v := rfl
@[simp] theorem State.setDk_busy (v : Vector Word 8) : (s.setDk v).busy = s.busy := rfl
@[simp] theorem State.setDk_pending (v : Vector Word 8) : (s.setDk v).pending = s.pending := rfl
@[simp] theorem State.setDk_drop (v : Vector Word 8) : (s.setDk v).drop = s.drop := rfl
@[simp] theorem State.setDk_cfg (v : Vector Word 8) : (s.setDk v).cfg = s.cfg := rfl
@[simp] theorem State.setDk_inputs (v : Vector Word 8) : (s.setDk v).inputs = s.inputs := rfl
@[simp] theorem State.setDk_turns (v : Vector Word 8) : (s.setDk v).turns = s.turns := rfl
@[simp] theorem State.setDk_reads (v : Vector Word 8) : (s.setDk v).reads = s.reads := rfl

@[simp] theorem State.setDrop_errcode (b : Bool) : (s.setDrop b).errcode = s.errcode := rfl
@[simp] theorem State.setDrop_lastcmd (b : Bool) : (s.setDrop b).lastcmd = s.lastcmd := rfl
@[simp] theorem State.setDrop_key (b : Bool) : (s.setDrop b).key = s.key := rfl
@[simp] theorem State.setDrop_din (b : Bool) : (s.setDrop b).din = s.din := rfl
@[simp] theorem State.setDrop_dout (b : Bool) : (s.setDrop b).dout = s.dout := rfl
@[simp] theorem State.setDrop_tbegin (b : Bool) : (s.setDrop b).tbegin = s.tbegin := rfl
@[simp] theorem State.setDrop_tend (b : Bool) : (s.setDrop b).tend = s.tend := rfl
@[simp] theorem State.setDrop_jval (b : Bool) : (s.setDrop b).jval = s.jval := rfl
@[simp] theorem State.setDrop_jcur (b : Bool) : (s.setDrop b).jcur = s.jcur := rfl
@[simp] theorem State.setDrop_jlast (b : Bool) : (s.setDrop b).jlast = s.jlast := rfl
@[simp] theorem State.setDrop_remain (b : Bool) : (s.setDrop b).remain = s.remain := rfl
@[simp] theorem State.setDrop_subkey (b : Bool) : (s.setDrop b).subkey = s.subkey := rfl
@[simp] theorem State.setDrop_msg (b : Bool) : (s.setDrop b).msg = s.msg := rfl
@[simp] theorem State.setDrop_dk (b : Bool) : (s.setDrop b).dk = s.dk := rfl
@[simp] theorem State.setDrop_busy (b : Bool) : (s.setDrop b).busy = s.busy := rfl
@[simp] theorem State.setDrop_pending (b : Bool) : (s.setDrop b).pending = s.pending := rfl
@[simp] theorem State.setDrop_drop (b : Bool) : (s.setDrop b).drop = b := rfl
@[simp] theorem State.setDrop_cfg (b : Bool) : (s.setDrop b).cfg = s.cfg := rfl
@[simp] theorem State.setDrop_inputs (b : Bool) : (s.setDrop b).inputs = s.inputs := rfl
@[simp] theorem State.setDrop_turns (b : Bool) : (s.setDrop b).turns = s.turns := rfl
@[simp] theorem State.setDrop_reads (b : Bool) : (s.setDrop b).reads = s.reads := rfl

@[simp] theorem State.setInputs_errcode (ops : List HostOp) : (s.setInputs ops).errcode = s.errcode := rfl
@[simp] theorem State.setInputs_lastcmd (ops : List HostOp) : (s.setInputs ops).lastcmd = s.lastcmd := rfl
@[simp] theorem State.setInputs_key (ops : List HostOp) : (s.setInputs ops).key = s.key := rfl
@[simp] theorem State.setInputs_din (ops : List HostOp) : (s.setInputs ops).din = s.din := rfl
@[simp] theorem State.setInputs_dout (ops : List HostOp) : (s.setInputs ops).dout = s.dout := rfl
@[simp] theorem State.setInputs_tbegin (ops : List HostOp) : (s.setInputs ops).tbegin = s.tbegin := rfl
@[simp] theorem State.setInputs_tend (ops : List HostOp) : (s.setInputs ops).tend = s.tend := rfl
@[simp] theorem State.setInputs_jval (ops : List HostOp) : (s.setInputs ops).jval = s.jval := rfl
@[simp] theorem State.setInputs_jcur (ops : List HostOp) : (s.setInputs ops).jcur = s.jcur := rfl
@[simp] theorem State.setInputs_jlast (ops : List HostOp) : (s.setInputs ops).jlast = s.jlast := rfl
@[simp] theorem State.setInputs_remain (ops : List HostOp) : (s.setInputs ops).remain = s.remain := rfl
@[simp] theorem State.setInputs_subkey (ops : List HostOp) : (s.setInputs ops).subkey = s.subkey := rfl
@[simp] theorem State.setInputs_msg (ops : List HostOp) : (s.setInputs ops).msg = s.msg := rfl
@[simp] theorem State.setInputs_dk (ops : List HostOp) : (s.setInputs ops).dk = s.dk := rfl
@[simp] theorem State.setInputs_busy (ops : List HostOp) : (s.setInputs ops).busy = s.busy := rfl
@[simp] theorem State.setInputs_pending (ops : List HostOp) : (s.setInputs ops).pending = s.pending := rfl
@[simp] theorem State.setInputs_drop (ops : List HostOp) : (s.setInputs ops).drop = s.drop := rfl
@[simp] theorem State.setInputs_cfg (ops : List HostOp) : (s.setInputs ops).cfg = s.cfg := rfl
@[simp] theorem State.setInputs_inputs (ops : List HostOp) : (s.setInputs ops).inputs = ops := rfl
@[simp] theorem State.setInputs_turns (ops : List HostOp) : (s.setInputs ops).turns = s.turns := rfl
@[simp] theorem State.setInputs_reads (ops : List HostOp) : (s.setInputs ops).reads = s.reads := rfl

@[simp] theorem State.popTurn_errcode : s.popTurn.errcode = s.errcode := rfl
@[simp] theorem State.popTurn_lastcmd : s.popTurn.lastcmd = s.lastcmd := rfl
@[simp] theorem State.popTurn_key : s.popTurn.key = s.key := rfl
@[simp] theorem State.popTurn_din : s.popTurn.din = s.din := rfl
@[simp] theorem State.popTurn_dout : s.popTurn.dout = s.dout := rfl
@[simp] theorem State.popTurn_tbegin : s.popTurn.tbegin = s.tbegin := rfl
@[simp] theorem State.popTurn_tend : s.popTurn.tend = s.tend := rfl
@[simp] theorem State.popTurn_jval : s.popTurn.jval = s.jval := rfl
@[simp] theorem State.popTurn_jcur : s.popTurn.jcur = s.jcur := rfl
@[simp] theorem State.popTurn_jlast : s.popTurn.jlast = s.jlast := rfl
@[simp] theorem State.popTurn_remain : s.popTurn.remain = s.remain := rfl
@[simp] theorem State.popTurn_subkey : s.popTurn.subkey = s.subkey := rfl
@[simp] theorem State.popTurn_msg : s.popTurn.msg = s.msg := rfl
@[simp] theorem State.popTurn_dk : s.popTurn.dk = s.dk := rfl
@[simp] theorem State.popTurn_busy : s.popTurn.busy = s.busy := rfl
@[simp] theorem State.popTurn_pending : s.popTurn.pending = s.pending := rfl
@[simp] theorem State.popTurn_drop : s.popTurn.drop = s.drop := rfl
@[simp] theorem State.popTurn_cfg : s.popTurn.cfg = s.cfg := rfl
@[simp] theorem State.popTurn_inputs : s.popTurn.inputs = s.inputs := rfl
@[simp] theorem State.popTurn_turns : s.popTurn.turns = s.turns.tail := rfl
@[simp] theorem State.popTurn_reads : s.popTurn.reads = s.reads := rfl

@[simp] theorem State.pushRead_errcode (v : Word) : (s.pushRead v).errcode = s.errcode := rfl
@[simp] theorem State.pushRead_lastcmd (v : Word) : (s.pushRead v).lastcmd = s.lastcmd := rfl
@[simp] theorem State.pushRead_key (v : Word) : (s.pushRead v).key = s.key := rfl
@[simp] theorem State.pushRead_din (v : Word) : (s.pushRead v).din = s.din := rfl
@[simp] theorem State.pushRead_dout (v : Word) : (s.pushRead v).dout = s.dout := rfl
@[simp] theorem State.pushRead_tbegin (v : Word) : (s.pushRead v).tbegin = s.tbegin := rfl
@[simp] theorem State.pushRead_tend (v : Word) : (s.pushRead v).tend = s.tend := rfl
@[simp] theorem State.pushRead_jval (v : Word) : (s.pushRead v).jval = s.jval := rfl
@[simp] theorem State.pushRead_jcur (v : Word) : (s.pushRead v).jcur = s.jcur := rfl
@[simp] theorem State.pushRead_jlast (v : Word) : (s.pushRead v).jlast = s.jlast := rfl
@[simp] theorem State.pushRead_remain (v : Word) : (s.pushRead v).remain = s.remain := rfl
@[simp] theorem State.pushRead_subkey (v : Word) : (s.pushRead v).subkey = s.subkey := rfl
@[simp] theorem State.pushRead_msg (v : Word) : (s.pushRead v).msg = s.msg := rfl
@[simp] theorem State.pushRead_dk (v : Word) : (s.pushRead v).dk = s.dk := rfl
@[simp] theorem State.pushRead_busy (v : Word) : (s.pushRead v).busy = s.busy := rfl
@[simp] theorem State.pushRead_pending (v : Word) : (s.pushRead v).pending = s.pending := rfl
@[simp] theorem State.pushRead_drop (v : Word) : (s.pushRead v).drop = s.drop := rfl
@[simp] theorem State.pushRead_cfg (v : Word) : (s.pushRead v).cfg = s.cfg := rfl
@[simp] theorem State.pushRead_inputs (v : Word) : (s.pushRead v).inputs = s.inputs := rfl
@[simp] theorem State.pushRead_turns (v : Word) : (s.pushRead v).turns = s.turns := rfl
@[simp] theorem State.pushRead_reads (v : Word) : (s.pushRead v).reads = v :: s.reads := rfl

@[simp] theorem State.accept_errcode (v : Word) : (s.accept v).errcode = s.errcode := rfl
@[simp] theorem State.accept_lastcmd (v : Word) : (s.accept v).lastcmd = s.lastcmd := rfl
@[simp] theorem State.accept_key (v : Word) : (s.accept v).key = s.key := rfl
@[simp] theorem State.accept_din (v : Word) : (s.accept v).din = s.din := rfl
@[simp] theorem State.accept_dout (v : Word) : (s.accept v).dout = s.dout := rfl
@[simp] theorem State.accept_tbegin (v : Word) : (s.accept v).tbegin = s.tbegin := rfl
@[simp] theorem State.accept_tend (v : Word) : (s.accept v).tend = s.tend := rfl
@[simp] theorem State.accept_jval (v : Word) : (s.accept v).jval = s.jval := rfl
@[simp] theorem State.accept_jcur (v : Word) : (s.accept v).jcur = s.jcur := rfl
@[simp] theorem State.accept_jlast (v : Word) : (s.accept v).jlast = s.jlast := rfl
@[simp] theorem State.accept_remain (v : Word) : (s.accept v).remain = s.remain := rfl
@[simp] theorem State.accept_subkey (v : Word) : (s.accept v).subkey = s.subkey := rfl
@[simp] theorem State.accept_msg (v : Word) : (s.accept v).msg = s.msg := rfl
@[simp] theorem State.accept_dk (v : Word) : (s.accept v).dk = s.dk := rfl
@[simp] theorem State.accept_busy (v : Word) : (s.accept v).busy = true := rfl
@[simp] theorem State.accept_pending (v : Word) : (s.accept v).pending = v := rfl
@[simp] theorem State.accept_drop (v : Word) : (s.accept v).drop = s.drop := rfl
@[simp] theorem State.accept_cfg (v : Word) : (s.accept v).cfg = s.cfg := rfl
@[simp] theorem State.accept_inputs (v : Word) : (s.accept v).inputs = s.inputs := rfl
@[simp] theorem State.accept_turns (v : Word) : (s.accept v).turns = s.turns := rfl
@[simp] theorem State.accept_reads (v : Word) : (s.accept v).reads = s.reads := rfl

@[simp] theorem State.complete_errcode (c : Code) : (s.complete c).errcode = c := rfl
@[simp] theorem State.complete_lastcmd (c : Code) : (s.complete c).lastcmd = s.pending := rfl
@[simp] theorem State.complete_key (c : Code) : (s.complete c).key = s.key := rfl
@[simp] theorem State.complete_din (c : Code) : (s.complete c).din = s.din := rfl
@[simp] theorem State.complete_dout (c : Code) : (s.complete c).dout = s.dout := rfl
@[simp] theorem State.complete_tbegin (c : Code) : (s.complete c).tbegin = s.tbegin := rfl
@[simp] theorem State.complete_tend (c : Code) : (s.complete c).tend = s.tend := rfl
@[simp] theorem State.complete_jval (c : Code) : (s.complete c).jval = s.jval := rfl
@[simp] theorem State.complete_jcur (c : Code) : (s.complete c).jcur = s.jcur := rfl
@[simp] theorem State.complete_jlast (c : Code) : (s.complete c).jlast = s.jlast := rfl
@[simp] theorem State.complete_remain (c : Code) : (s.complete c).remain = s.remain := rfl
@[simp] theorem State.complete_subkey (c : Code) : (s.complete c).subkey = s.subkey := rfl
@[simp] theorem State.complete_msg (c : Code) : (s.complete c).msg = s.msg := rfl
@[simp] theorem State.complete_dk (c : Code) : (s.complete c).dk = s.dk := rfl
@[simp] theorem State.complete_busy (c : Code) : (s.complete c).busy = false := rfl
@[simp] theorem State.complete_pending (c : Code) : (s.complete c).pending = s.pending := rfl
@[simp] theorem State.complete_drop (c : Code) : (s.complete c).drop = s.drop := rfl
@[simp] theorem State.complete_cfg (c : Code) : (s.complete c).cfg = s.cfg := rfl
@[simp] theorem State.complete_inputs (c : Code) : (s.complete c).inputs = s.inputs := rfl
@[simp] theorem State.complete_turns (c : Code) : (s.complete c).turns = s.turns := rfl
@[simp] theorem State.complete_reads (c : Code) : (s.complete c).reads = s.reads := rfl

@[simp] theorem State.applyReset_errcode : s.applyReset.errcode = State.reset.errcode := rfl
@[simp] theorem State.applyReset_lastcmd : s.applyReset.lastcmd = State.reset.lastcmd := rfl
@[simp] theorem State.applyReset_key : s.applyReset.key = State.reset.key := rfl
@[simp] theorem State.applyReset_din : s.applyReset.din = State.reset.din := rfl
@[simp] theorem State.applyReset_dout : s.applyReset.dout = State.reset.dout := rfl
@[simp] theorem State.applyReset_tbegin : s.applyReset.tbegin = State.reset.tbegin := rfl
@[simp] theorem State.applyReset_tend : s.applyReset.tend = State.reset.tend := rfl
@[simp] theorem State.applyReset_jval : s.applyReset.jval = State.reset.jval := rfl
@[simp] theorem State.applyReset_jcur : s.applyReset.jcur = State.reset.jcur := rfl
@[simp] theorem State.applyReset_jlast : s.applyReset.jlast = State.reset.jlast := rfl
@[simp] theorem State.applyReset_remain : s.applyReset.remain = State.reset.remain := rfl
@[simp] theorem State.applyReset_subkey : s.applyReset.subkey = State.reset.subkey := rfl
@[simp] theorem State.applyReset_msg : s.applyReset.msg = State.reset.msg := rfl
@[simp] theorem State.applyReset_dk : s.applyReset.dk = State.reset.dk := rfl
@[simp] theorem State.applyReset_busy : s.applyReset.busy = State.reset.busy := rfl
@[simp] theorem State.applyReset_pending : s.applyReset.pending = State.reset.pending := rfl
@[simp] theorem State.applyReset_drop : s.applyReset.drop = State.reset.drop := rfl
@[simp] theorem State.applyReset_cfg : s.applyReset.cfg = s.cfg := rfl
@[simp] theorem State.applyReset_inputs : s.applyReset.inputs = s.inputs := rfl
@[simp] theorem State.applyReset_turns : s.applyReset.turns = s.turns := rfl
@[simp] theorem State.applyReset_reads : s.applyReset.reads = s.reads := rfl

/-- `Fail` is the same ending as a success, with another code (R37, R181). -/
@[simp] theorem State.fail_eq (c : Code) : s.fail c = s.complete c := rfl

end Sys2Proof.Machine
end

