-- ==== Sys2Proof/Laws/Window.lean ====
section
/-! SUPPORT. What the operations of the register window can do (Machine/Ops.lean). -/

namespace Sys2Proof.Machine

/-! ## Halves of 64-bit registers (R18, R41) -/

@[simp] theorem halfOf_withHalf (h : Half) (x : DWord) (v : Word) : halfOf h (withHalf h x v) = v := by
  cases h <;> simp [halfOf, withHalf]

theorem halfOf_withHalf_of_ne {h h' : Half} (hne : h' ≠ h) (x : DWord) (v : Word) :
    halfOf h' (withHalf h x v) = halfOf h' x := by
  cases h <;> cases h' <;> simp_all [halfOf, withHalf]

/-! ## Reads and writes of one word -/

/-- A word that stores what is written to it reads as the value written (R47). -/
theorem readReg_writeReg_same {r : WindowReg} (hr : r.isRW = true) (v : Word) (s : State) :
    readReg r (writeReg r v s) = v := by
  cases r <;> simp_all [readReg, writeReg, WindowReg.isRW]

/-- A write to a word that stores leaves every other word as it reads (R47). -/
theorem readReg_writeReg_other {r r' : WindowReg} (hr : r.isRW = true) (hne : r' ≠ r) (v : Word)
    (s : State) : readReg r' (writeReg r v s) = readReg r' s := by
  cases r <;> cases r' <;>
    simp_all [readReg, writeReg, WindowReg.isRW, halfOf_withHalf_of_ne, statusWord, errFlag, errcodeWord,
      genActive] <;>
    exact Vector.getElem_set_ne _ _ (by omega)

/-- Everything a host write can do (R43, R45 to R47): set DROP, act on STATUS, or, with no command
pending, start one or store a word. -/
theorem hostWrite_cases (off : Offset) (size : Nat) (v : Word) (s : State) :
    hostWrite off size v s = s.setDrop true ∨
    (windowReg off = .status ∧ hostWrite off size v s = writeStatus v s) ∨
    (s.busy = false ∧ windowReg off = .cmd ∧ hostWrite off size v s = s.accept v) ∨
    (s.busy = false ∧ (windowReg off).isRW = true ∧
      hostWrite off size v s = writeReg (windowReg off) v s) := by
  unfold hostWrite
  split
  · split
    · exact .inl rfl
    · rename_i h
      cases hr : windowReg off <;> simp_all [writeReg, WindowReg.isRW]
  · exact .inl rfl

/-- A write does not look at the model's own turns and list of accesses, and leaves them alone. -/
theorem hostWrite_withRecord (off : Offset) (size : Nat) (v : Word) (s : State) (ts : List Turn)
    (ops : List HostOp) :
    hostWrite off size v { s with turns := ts, inputs := ops } =
      { hostWrite off size v s with turns := ts, inputs := ops } := by
  unfold hostWrite
  by_cases h : honoured off size = true
  · rw [if_pos h, if_pos h]
    by_cases hb : (s.busy && windowReg off != .status) = true
    · rw [if_pos hb, if_pos hb]; rfl
    · rw [if_neg hb, if_neg hb]
      cases windowReg off <;> first | rfl | (simp only [writeReg, writeStatus]; split <;> rfl)
  · rw [if_neg h, if_neg h]; rfl

/-- The address of an offset reaches the window at that offset (R40). -/
@[simp] theorem windowOffset_busAddress (cfg : Config) (off : Offset) :
    windowOffset cfg (busAddress cfg off) = some off := by
  have h := off.isLt
  have e : cfg.base + off.toNat - cfg.base = off.toNat := by omega
  simp [windowOffset, busAddress, e, h]

end Sys2Proof.Machine
end

