-- ==== Sys2Proof/Laws/Step.lean ====
section
/-! SUPPORT. What a command, an engine move, a host move and a step can do. -/

namespace Sys2Proof.Machine

/-! ## Commands -/

/-- Every command answers a next state (R37, R181), which is some state after a completion. -/
theorem exec_next (i : Instr) (s : State) : ∃ t, exec i s = .next t := by
  cases i <;> exact ⟨_, rfl⟩

/-- The two ends of RPI_START (R162, R165). -/
theorem execRpiStart_cases {s t : State} (h : execRpiStart s = .next t) :
    (∃ c, startCode s.cfg.cap (interval (s64 s.tbegin)) (interval (s64 s.tend)) = c ∧ c ≠ .ok ∧
      t = (s.setRemain 0).complete c) ∨
    (startCode s.cfg.cap (interval (s64 s.tbegin)) (interval (s64 s.tend)) = .ok ∧
      t = ((((s.setSubkey (wordsOf (rpiSubkey (bytesOf s.key)))).setJcur
        (u64 (interval (s64 s.tbegin)))).setJlast (u64 (interval (s64 s.tend)))).setRemain
        (BitVec.ofNat 32 (rangeCount (interval (s64 s.tbegin)) (interval (s64 s.tend))))).complete .ok) := by
  simp only [execRpiStart, Host.Outcome.next.injEq] at h
  split at h
  · exact .inr ⟨‹_›, h.symm⟩
  · exact .inl ⟨_, rfl, ‹_›, h.symm⟩

/-- The two ends of RPI_NEXT (R163). -/
theorem execRpiNext_cases {s t : State} (h : execRpiNext s = .next t) :
    (s.remain = 0 ∧ t = s.complete .seq) ∨
    (s.remain ≠ 0 ∧
      t = (((s.setDout (wordsOf (aes128 (bytesOf s.subkey) (padBlock (s64 s.jcur))))).setJcur
        (u64 (s64 s.jcur + 1))).setRemain (s.remain - 1)).complete .ok) := by
  simp only [execRpiNext, Host.Outcome.next.injEq] at h
  split at h
  · exact .inl ⟨‹_›, h.symm⟩
  · exact .inr ⟨‹_›, h.symm⟩

/-- What every command does alike: it completes, and it leaves the host's operands and the rest of the
state alone (R37, R182). -/
theorem exec_common {i : Instr} {s t : State} (h : exec i s = .next t) :
    KeepsOperands s t ∧ KeepsRest s t ∧ CompletedWith t.errcode s t := by
  cases i <;>
    simp only [exec, execNop, execEncrypt, execHkdf, execHmac, execInterval, execPad,
      Host.Outcome.next.injEq] at h
  case rpiStart =>
    obtain ⟨c, -, -, rfl⟩ | ⟨-, rfl⟩ := execRpiStart_cases h <;>
      refine ⟨⟨?_, ?_, ?_, ?_⟩, ⟨?_, ?_, ?_, ?_, ?_, ?_⟩, ⟨?_, ?_, ?_⟩⟩ <;> simp
  case rpiNext =>
    obtain ⟨-, rfl⟩ | ⟨-, rfl⟩ := execRpiNext_cases h <;>
      refine ⟨⟨?_, ?_, ?_, ?_⟩, ⟨?_, ?_, ?_, ?_, ?_, ?_⟩, ⟨?_, ?_, ?_⟩⟩ <;> simp
  all_goals
    try split at h
  all_goals
    subst h
    refine ⟨⟨?_, ?_, ?_, ?_⟩, ⟨?_, ?_, ?_, ?_, ?_, ?_⟩, ⟨?_, ?_, ?_⟩⟩ <;> simp

/-- The commands outside the generator leave its state alone (R166). -/
theorem exec_keeps_generator {i : Instr} {s t : State} (h : exec i s = .next t) (h1 : i ≠ .rpiStart)
    (h2 : i ≠ .rpiNext) : KeepsGenerator s t := by
  cases i <;>
    simp only [exec, execNop, execEncrypt, execHkdf, execHmac, execInterval, execPad,
      Host.Outcome.next.injEq, ne_eq, not_true_eq_false] at h h1 h2
  all_goals
    try split at h
  all_goals
    subst h
    refine ⟨?_, ?_, ?_, ?_⟩ <;> simp

/-! ## Moves and steps -/

/-- An engine move runs the decoded command or completes with ERR_ILLEGAL (R66). -/
theorem engineMove_cases {s t : State} (h : engineMove s = .next t) :
    (∃ i, decode s.pending = .ok i ∧ exec i s = .next t) ∨
    (∃ e, decode s.pending = .error e ∧ t = s.complete .illegal) := by
  unfold engineMove at h
  split at h
  · exact .inl ⟨_, ‹_›, h⟩
  · exact .inr ⟨_, ‹_›, by simpa using h.symm⟩

theorem engineMove_next (s : State) : ∃ t, engineMove s = .next t := by
  unfold engineMove
  split
  · exact exec_next _ _
  · exact ⟨_, rfl⟩

/-- STATUS bit 0 is BUSY (R20, R44). -/
theorem status_bit0 (s : State) : (hostRead 0x04 4 s).getLsbD 0 = s.busy := by
  show (statusWord s).getLsbD 0 = s.busy
  unfold statusWord
  cases s.busy <;> cases s.drop <;> cases errFlag s <;> cases genActive s <;> rfl

/-- A `WAIT` stays in the queue exactly while a command is pending (R70). -/
theorem hostAct_wait (rest : List HostOp) (s : State) :
    hostAct .wait rest s =
      (s.pushRead (hostRead 0x04 4 s)).setInputs (if s.busy then .wait :: rest else rest) := by
  rw [← status_bit0 s]
  rfl

/-- A host move leaves what the engine writes alone (R23 to R32): of the block's registers it can change
the RW words, `pending`, `busy` and DROP. -/
theorem hostMove_keeps (s : State) :
    KeepsGenerator s (hostMove s) ∧ (hostMove s).errcode = s.errcode ∧
      (hostMove s).lastcmd = s.lastcmd ∧ (hostMove s).dout = s.dout ∧ (hostMove s).dk = s.dk ∧
      (hostMove s).cfg = s.cfg ∧ (hostMove s).turns = s.turns := by
  have hw : ∀ off size v, KeepsGenerator s (hostWrite off size v s) ∧
      (hostWrite off size v s).errcode = s.errcode ∧ (hostWrite off size v s).lastcmd = s.lastcmd ∧
      (hostWrite off size v s).dout = s.dout ∧ (hostWrite off size v s).dk = s.dk ∧
      (hostWrite off size v s).cfg = s.cfg ∧ (hostWrite off size v s).turns = s.turns := by
    intro off size v
    obtain h | ⟨-, h⟩ | ⟨-, -, h⟩ | ⟨-, hr, h⟩ := hostWrite_cases off size v s
    · rw [h]; exact ⟨⟨rfl, rfl, rfl, rfl⟩, rfl, rfl, rfl, rfl, rfl, rfl⟩
    · rw [h, writeStatus]; split <;> exact ⟨⟨rfl, rfl, rfl, rfl⟩, rfl, rfl, rfl, rfl, rfl, rfl⟩
    · rw [h]; exact ⟨⟨rfl, rfl, rfl, rfl⟩, rfl, rfl, rfl, rfl, rfl, rfl⟩
    · rw [h]
      cases hc : windowReg off <;> simp only [hc, WindowReg.isRW, Bool.false_eq_true] at hr <;>
        exact ⟨⟨rfl, rfl, rfl, rfl⟩, rfl, rfl, rfl, rfl, rfl, rfl⟩
  unfold hostMove
  split
  · exact ⟨⟨rfl, rfl, rfl, rfl⟩, rfl, rfl, rfl, rfl, rfl, rfl⟩
  · rename_i op rest _
    cases op with
    | read addr size =>
      simp only [hostAct]
      split <;> exact ⟨⟨rfl, rfl, rfl, rfl⟩, rfl, rfl, rfl, rfl, rfl, rfl⟩
    | write addr size v =>
      simp only [hostAct]
      split
      · obtain ⟨⟨a, b, c, d⟩, e⟩ := hw ‹_› size v
        exact ⟨⟨a, b, c, d⟩, e⟩
      · exact ⟨⟨rfl, rfl, rfl, rfl⟩, rfl, rfl, rfl, rfl, rfl, rfl⟩
    | wait => exact ⟨⟨rfl, rfl, rfl, rfl⟩, rfl, rfl, rfl, rfl, rfl, rfl⟩

/-- The engine moves only while a command is pending (R37). -/
theorem busy_of_mover_engine {s : State} (h : mover s = some .engine) : s.busy = true := by
  unfold mover at h
  split at h
  · simp at h
  · split at h <;> simp_all
  · split at h
    · assumption
    · split at h <;> simp at h

/-- Nobody moves only when no command is pending and the host has no access to make. -/
theorem idle_of_mover_none {s : State} (h : mover s = none) : s.busy = false ∧ s.inputs = [] := by
  unfold mover at h
  split at h
  · simp at h
  · split at h <;> simp_all
  · split at h <;> simp_all

/-- Everything a step can be (R49, R200). -/
theorem step_cases {s t : State} (h : step s = .next t) :
    (mover s = some .reset ∧ t = s.popTurn.applyReset) ∨
    (mover s = some .engine ∧ engineMove s.popTurn = .next t) ∨
    (mover s = some .host ∧ t = hostMove s.popTurn) ∨
    (mover s = none ∧ t = s.popTurn) := by
  unfold step at h
  split at h <;> simp_all

/-- Every step answers a next state: the block has no traps (R181). -/
theorem step_next (s : State) : ∃ t, step s = .next t := by
  unfold step
  split
  · exact ⟨_, rfl⟩
  · exact engineMove_next _
  · exact ⟨_, rfl⟩
  · exact ⟨_, rfl⟩

/-- A run of steps is a step and a run. -/
theorem run_succ {s t : State} (h : step s = .next t) (n : Nat) :
    Host.Core.run core (n + 1) s = Host.Core.run core n t := by
  simp [Host.Core.run, core, h]

end Sys2Proof.Machine
end

