-- ==== Sys2Proof/Tests/Slice0.lean ====
section
/-! SUPPORT. The model's own tests. Expected values are those of spec/95_test_vectors.md and of the
examples in the rules, never the model's own answers. Then one witness for each statement that has
hypotheses: a concrete state and operands that meet all of them. -/

namespace Sys2Proof.Tests

open Sys2Proof Sys2Proof.Machine

/-! ## Small states -/

/-- Reset with the command word `w` accepted. -/
def withPending (w : Word) : State := { State.reset with busy := true, pending := w }

/-- Reset with `ops` to be made by the host. -/
def withOps (ops : List HostOp) : State := { State.reset with inputs := ops }

/-- Reset with the times `b` and `e` in TBEGIN and TEND. -/
def withTimes (b e : Int) : State := { State.reset with tbegin := u64 b, tend := u64 e }

/-- Reset with the interval number `j` in JVAL. -/
def withJval (j : Int) : State := { State.reset with jval := u64 j }

/-- A generator at the one interval `j`, with KAT 2's subkey. -/
def lastOne (j : DWord) : State :=
  { State.reset with subkey := #v[0xc61e434d, 0x84c987a2, 0x5f2e8708, 0xb1790826], jcur := j, jlast := j, remain := 1 }

/-- A running sequence with the command word `w` accepted. -/
def running (w : Word) : State := { lastOne 7 with busy := true, pending := w }

/-- A result that is a next state with the property `p`. -/
def nextWith (o : Outcome) (p : State → Bool) : Bool :=
  match o with
  | .next t => p t
  | .fault _ => false
  | .refused _ => false

/-! ## Decoding: words written out from the pattern of R60, `RRRRRRRT MMMMMMMM LLLLLLLL OOOOOOOO` -/

theorem test_decode_nop : decode 0b00000000000000000000000000000000 = .ok .nop := by rfl
theorem test_decode_encrypt : decode 0b00000000000000000000000000000001 = .ok .encrypt := by rfl
/-- R69's example `HKDF 16, 7`. -/
theorem test_decode_hkdf : decode 0b00000000000001110001000000000010 = .ok (.hkdf 16 7) := by rfl
/-- R69's example `HMAC 13`. -/
theorem test_decode_hmac : decode 0b00000000000011010000000000000011 = .ok (.hmac 13) := by rfl
theorem test_decode_interval_begin :
    decode 0b00000000000000000000000000000100 = .ok (.interval .timeBegin) := by rfl
theorem test_decode_interval_end :
    decode 0b00000001000000000000000000000100 = .ok (.interval .timeEnd) := by rfl
theorem test_decode_pad : decode 0b00000000000000000000000000000101 = .ok .pad := by rfl
theorem test_decode_rpi_start : decode 0b00000000000000000000000000000110 = .ok .rpiStart := by rfl
theorem test_decode_rpi_next : decode 0b00000000000000000000000000000111 = .ok .rpiNext := by rfl

/-- Words that spec/95_test_vectors.md §2.1 to §2.4 and P4 call illegal. -/
theorem test_decode_illegal :
    decode 0x00000008 = .error .reservedOpcode ∧ decode 0x00000101 = .error .unusedFieldSet ∧
    decode 0x00000103 = .error .unusedFieldSet ∧ decode 0x01071002 = .error .unusedFieldSet ∧
    decode 0x02000004 = .error .unusedFieldSet ∧ decode 0x00000107 = .error .unusedFieldSet :=
  ⟨rfl, rfl, rfl, rfl, rfl, rfl⟩

/-- R69's table and examples, in the other direction. -/
theorem test_encode :
    encode (.hkdf 16 7) = 0x00071002 ∧ encode (.hmac 13) = 0x000D0003 ∧ encode (.hkdf 32 0) = 0x00002002 ∧
    encode (.interval .timeEnd) = 0x01000004 ∧ encode .rpiNext = 0x00000007 := by decide

/-- The two names the host asks with: a table word, and the words of a longer or an illegal number. -/
theorem test_decodeTableWord :
    decodeTableWord 32 0x00071002 = some (.hkdf 16 7) ∧ decodeTableWord 32 0x00000108 = none ∧
    decodeTableWord 64 0x0000000100000001 = none := by decide

/-! ## Well-formedness: a byte count that does not fit its 8-bit field (R62) -/

theorem test_wellFormed_refuses_len : (Instr.hkdf 256 0).wellFormed = false := by decide
theorem test_wellFormed_refuses_mlen : (Instr.hkdf 0 256).wellFormed = false := by decide
theorem test_wellFormed_refuses_hmac : (Instr.hmac 256).wellFormed = false := by decide

/-! ## One step of each command -/

/-- R144's example: NOP after a failure leaves ERRCODE = 0. -/
theorem test_nop_clears_error :
    nextWith (step { withPending 0 with errcode := .range }) (fun t => hostRead 0x08 4 t == 0 && !t.busy) = true := by
  decide

/-- P1 (KAT 1). -/
theorem test_encrypt_kat1 :
    nextWith (step { withPending 0x00000001 with
      key := #v[0x74616854, 0x796d2073, 0x6e754b20, 0x75462067],
      din := #v[0x206f7754, 0x20656e4f, 0x656e694e, 0x6f775420] })
      (fun t => t.dout == #v[0x5f50c329, 0xf6201457, 0xb3992240, 0x3ad7021a]) = true := by decide +kernel

/-- §2.1: ENCRYPT with LEN = 1 has code 1. -/
theorem test_encrypt_with_len :
    nextWith (step (withPending 0x00000101)) (fun t => t.errcode == .illegal && t.lastcmd == 0x00000101) = true := by
  decide

/-- §2.2, the DK words of the row L = 32. -/
theorem test_hkdf_ek3 :
    nextWith (step { withPending 0x00072002 with
      key := #v[0xc634c775, 0x2d781add, 0xda65a9e7, 0x2531b95e],
      msg := (Vector.replicate 16 0).set 0 0x522d4e45 |>.set 1 0x004b4950 })
      (fun t => t.dk == #v[0x1dd95a18, 0xddc79eb6, 0xf1608904, 0x7561baf3, 0xbf825d54, 0x73cf0620, 0xc97a53fc,
        0xef4ba570]) = true := by decide +kernel

/-- §2.2: L = 33 has code 2. -/
theorem test_hkdf_len_33 :
    nextWith (step (withPending 0x00002102)) (fun t => t.errcode == .field && t.dk == State.reset.dk) = true := by
  decide

/-- §2.2: the all-zero key and the empty message. -/
theorem test_hmac_empty :
    nextWith (step (withPending 0x00000003)) (fun t => (bytesOf t.dk).toList.take 4 == [0xb6, 0x13, 0x67, 0x9a]
      && (bytesOf t.dk).toList.drop 28 == [0x42, 0x92, 0xc5, 0xad]) = true := by decide +kernel

/-- §2.2: M = 65 has code 2. -/
theorem test_hmac_mlen_65 :
    nextWith (step (withPending 0x00410003)) (fun t => hostRead 0x08 4 t == 2 && t.dk == State.reset.dk) = true := by
  decide

/-- §2.3: floor, not truncation. -/
theorem test_interval_minus_601 :
    nextWith (step { withPending 0x00000004 with tbegin := 0xFFFFFFFFFFFFFDA7 })
      (fun t => t.jval == 0xFFFFFFFFFFFFFFFE) = true := by decide

/-- §2.3: the least time, from TEND. -/
theorem test_interval_least :
    nextWith (step { withPending 0x01000004 with tend := 0x8000000000000000 })
      (fun t => t.jval == 0xFFC962FC962FC962) = true := by decide

/-- §2.3: the DIN words of the row 0x12345678. -/
theorem test_pad :
    nextWith (step { withPending 0x00000005 with jval := 0x12345678 })
      (fun t => t.din == #v[0x522D4E45, 0x00004950, 0, 0x12345678]) = true := by decide

/-- §2.3: 2^32 has code 3. -/
theorem test_pad_range :
    nextWith (step { withPending 0x00000005 with jval := 0x0000000100000000 })
      (fun t => t.errcode == .range && t.din == State.reset.din) = true := by decide

/-- §2.4 (KAT 2): SUBKEY, JLAST, REMAIN. -/
theorem test_rpi_start_kat2 :
    nextWith (step { withPending 0x00000006 with key := #v[0x006F6F66, 0, 0, 0], tend := 601 })
      (fun t => t.subkey == #v[0xc61e434d, 0x84c987a2, 0x5f2e8708, 0xb1790826] && t.jlast == 1 && t.remain == 2) =
      true := by decide +kernel

/-- §2.4: the cap is checked before the range. -/
theorem test_rpi_start_limit :
    nextWith (step { withPending 0x00000006 with tbegin := u64 (-6000600), tend := 0x0000025800000000, remain := 5 })
      (fun t => t.errcode == .limit && t.remain == 0) = true := by decide

/-- §2.4 (KAT 2): element 0. -/
theorem test_rpi_next_kat2 :
    nextWith (step { lastOne 0 with busy := true, pending := 7 })
      (fun t => t.dout == #v[0xb7a2aceb, 0x010dc935, 0xcae861c3, 0xf267c16e] && t.remain == 0) = true := by
  decide +kernel

/-- §2.4: the last interval of all leaves JCUR = 2^32. -/
theorem test_rpi_next_last_interval :
    nextWith (step { lastOne 0xFFFFFFFF with busy := true, pending := 7 })
      (fun t => hostRead 0x58 4 t == 0 && hostRead 0x5C 4 t == 1 && hostRead 0x04 4 t == 0) = true := by
  decide +kernel

/-! ## The bus (spec/95_test_vectors.md §2.5) -/

theorem test_misaligned_read : hostRead 0x11 4 { State.reset with key := .replicate 4 1 } = 0 := by decide

theorem test_byte_write_drops :
    (hostWrite 0x10 1 0xff State.reset).drop = true ∧ (hostWrite 0x10 1 0xff State.reset).key = State.reset.key := by
  decide

/-- STATUS with a failed command, a pending one and a discarded write is 0x0000000D. -/
theorem test_status_0D :
    hostRead 0x04 4 (hostWrite 0x10 4 0xdeadbeef { withPending 7 with errcode := .limit }) = 0x0000000D := by decide

/-- P1: the bytes of KAT 1's key make KEY0 = 0x74616854 (R41's example). -/
theorem test_key_byte_order :
    (bytesOf (#v[0x74616854, 0x796d2073, 0x6e754b20, 0x75462067] : Vector Word 4)).toList.take 8 =
      [0x54, 0x68, 0x61, 0x74, 0x73, 0x20, 0x6d, 0x79] := by decide

/-- R70: `EXEC NOP` is one WAIT, one write of CMD, one WAIT. -/
theorem test_exec_expansion :
    hostExec Config.default .pad = [.wait, .write 0 4 0x00000005, .wait] := by decide

/-- R70 with R40: `LD16 0x0F4` goes on past the window at `BASE + 0x100`, and never comes round to CMD. -/
theorem test_ld16_past_the_window :
    hostLd16 { cap := 10000, base := 0x1000 } 0xF4 (.replicate 16 0) =
      [.write 0x10F4 4 0, .write 0x10F8 4 0, .write 0x10FC 4 0, .write 0x1100 4 0] ∧
    windowOffset { cap := 10000, base := 0x1000 } 0x1100 = none := by decide

/-- The word placed for the next step is the one the next step completes. -/
theorem test_withFetchWord :
    nextWith (step (State.reset.withFetchWord 32 0x00000004)) (fun t => t.lastcmd == 4 && !t.busy) = true := by decide

/-- §2.1: the first and the last of KAT 1's expanded round keys. -/
theorem test_round_keys_kat1 :
    let rks := roundKeys #v[0x54, 0x68, 0x61, 0x74, 0x73, 0x20, 0x6d, 0x79, 0x20, 0x4b, 0x75, 0x6e, 0x67, 0x20, 0x46, 0x75]
    (rks.head?.map fun b => b.toList.take 4) = some [0xe2, 0x32, 0xfc, 0xf1] ∧
      (rks.getLast?.map fun b => b.toList.drop 12) = some [0x3b, 0x31, 0x6f, 0x26] := by decide +kernel

/-! ## Witnesses: states and operands that meet the hypotheses of each statement -/

theorem witness_DecodeOfEncode :
    (Instr.hkdf 255 255).wellFormed = true ∧ (Instr.hmac 255).wellFormed = true ∧ Instr.nop.wellFormed = true := by
  decide

theorem witness_EncodeOfDecode : decode 0x00FFFF02 = .ok (.hkdf 255 255) := by rfl

theorem witness_DecodeMatchesOpcodeMap :
    (0x00071002 : Word) &&& Op.hkdf.mask = Op.hkdf.pattern ∧ (0x00FF0003 : Word) &&& Op.hmac.mask = Op.hmac.pattern := by
  decide

/-- Both clauses: the lowest and the highest reserved bit, the lowest and the highest reserved OP. -/
theorem witness_ReservedEncodingsIllegal :
    (0x02000000 : Word).extractLsb' 25 7 ≠ 0 ∧ (0x80000000 : Word).extractLsb' 25 7 ≠ 0 ∧
    0x08 ≤ ((0x00000008 : Word).extractLsb' 0 8).toNat ∧ 0x08 ≤ ((0x000000FF : Word).extractLsb' 0 8).toNat := by
  decide

theorem witness_StepRunsDecoded :
    mover (withPending 0x00071002) = some .engine ∧ decode (withPending 0x00071002).pending = .ok (.hkdf 16 7) :=
  ⟨by decide, rfl⟩

theorem witness_PlacedWordRuns : decodeTableWord 32 0x01000004 = some (.interval .timeEnd) := by decide

theorem witness_IllegalWordCompletes :
    mover (withPending 0x00000008) = some .engine ∧
    (withPending 0x00000008).pending &&& Op.nop.mask ≠ Op.nop.pattern ∧
    ∀ c : Op, (withPending 0x00000101).pending &&& c.mask ≠ c.pattern := by
  refine ⟨by decide, by decide, fun c => by cases c <;> decide⟩

theorem witness_EngineStepCompletes : mover (withPending 0xFFFFFFFF) = some .engine := by decide

/-- A read that is made, and a `WAIT` that stays. -/
theorem witness_HostAccessesInOrder :
    (∃ t, step (withOps [.read 0x10 4]) = .next t ∧ t.inputs = []) ∧
    ∃ t, step { withPending 0 with inputs := [.wait], turns := [.host] } = .next t ∧ t.inputs = [.wait] :=
  ⟨⟨_, rfl, rfl⟩, ⟨_, rfl, rfl⟩⟩

theorem witness_CmdWriteAccepts : State.reset.busy = false := by decide

theorem witness_ResetClearsEverything : ({ withPending 1 with turns := [.reset] } : State).turns.head? = some .reset := by
  decide

theorem witness_ReadReturns :
    mover (withOps [.read 0xFC 4]) = some .host ∧
    (withOps [.read 0xFC 4]).inputs = .read (busAddress (withOps []).cfg 0xFC) 4 :: [] := by decide

/-- Both clauses: a wrong size at an aligned offset, and an unaligned offset at the right size. -/
theorem witness_MalformedAccess :
    (1 : Nat) ≠ 4 ∧ (8 : Nat) ≠ 4 ∧ (0x01 : Offset).extractLsb' 0 2 ≠ 0 ∧ (0xFF : Offset).extractLsb' 0 2 ≠ 0 := by
  decide

/-- Busy, at the first offset, at both neighbours of STATUS and at the last one. -/
theorem witness_WriteLockWhileBusy :
    (withPending 1).busy = true ∧ ∀ off ∈ ([0x00, 0x08, 0xFC] : List Offset), off.toNat % 4 = 0 ∧ off ≠ 0x04 := by
  decide

/-- Each range of read-only and reserved offsets, at its first and its last word. -/
theorem witness_ReadOnlyWriteDropped :
    State.reset.busy = false ∧
    ∀ off ∈ ([0x08, 0x0C, 0x30, 0x3C, 0x58, 0x7C, 0xC0, 0xFC] : List Offset), off.toNat % 4 = 0 ∧
      (0x08 ≤ off.toNat ∧ off.toNat < 0x10 ∨ 0x30 ≤ off.toNat ∧ off.toNat < 0x40 ∨
        0x58 ≤ off.toNat ∧ off.toNat < 0x80 ∨ 0xC0 ≤ off.toNat) := by decide

/-- Each range of RW offsets, at its first and its last word; and a host whose first access is a write at
the last offset of the window, of one byte. -/
theorem witness_OperandWriteStores :
    (mover (withOps [.write 0xFF 1 7]) = some .host ∧
      (withOps [.write 0xFF 1 7]).inputs = .write (busAddress (withOps []).cfg 0xFF) 1 7 :: []) ∧
    State.reset.busy = false ∧
    ∀ off ∈ ([0x10, 0x2C, 0x40, 0x54, 0x80, 0xBC] : List Offset), off.toNat % 4 = 0 ∧
      (0x10 ≤ off.toNat ∧ off.toNat < 0x30 ∨ 0x40 ≤ off.toNat ∧ off.toNat < 0x58 ∨
        0x80 ≤ off.toNat ∧ off.toNat < 0xC0) := by decide

/-- Each clause: busy, another offset, another size; and an idle block. -/
theorem witness_WriteIdempotence :
    (withPending 0).busy = true ∧ (0x10 : Offset) ≠ 0x00 ∧ (2 : Nat) ≠ 4 ∧ State.reset.busy = false := by decide

/-- DROP falls by a reset, and by a write to STATUS. -/
theorem witness_DropIsSticky :
    (∃ t, step { State.reset with drop := true, turns := [.reset] } = .next t ∧ t.drop = false) ∧
    ∃ t, step { State.reset with drop := true, inputs := [.write 0x04 4 0x00000004] } = .next t ∧ t.drop = false :=
  ⟨⟨_, rfl, rfl⟩, ⟨_, rfl, rfl⟩⟩

/-- The address below the window and the address above it, for a read and for a write. -/
theorem witness_OutsideWindowIgnored :
    let c : Config := { cap := 10000, base := 0x1000 }
    mover { withOps [.read 0xFFF 4] with cfg := c } = some .host ∧ 0xFFF < c.base ∧
    mover { withOps [.write 0x1100 4 0] with cfg := c } = some .host ∧ c.base + 256 ≤ 0x1100 := by decide

/-- A word of the third clause with the least bit above OP set. -/
theorem witness_NopCompletes :
    (withPending 0x00000100).pending.extractLsb' 0 8 = 0x00 ∧ (withPending 0x00000100).pending ≠ 0x00000000 := by decide

/-- The least and the greatest L and M. -/
theorem witness_HkdfCompletes : 1 ≤ 1 ∧ 1 ≤ 32 ∧ 0 ≤ 64 ∧ 1 ≤ 32 ∧ 32 ≤ 32 ∧ 64 ≤ 64 := by decide

theorem witness_HmacCompletes : 0 ≤ 64 ∧ 64 ≤ 64 := by decide

/-- Each clause, at the values next to the range and at the greatest that fits the field. -/
theorem witness_FieldErrors :
    (∀ i ∈ ([.hkdf 0 0, .hkdf 33 0, .hkdf 1 65, .hkdf 255 255, .hmac 65, .hmac 255] : List Instr),
      i.wellFormed = true) ∧
    (∃ l m, Instr.hkdf 0 0 = .hkdf l m ∧ (l < 1 ∨ 32 < l ∨ 64 < m)) ∧
    (∃ l m, Instr.hkdf 33 0 = .hkdf l m ∧ (l < 1 ∨ 32 < l ∨ 64 < m)) ∧
    (∃ l m, Instr.hkdf 1 65 = .hkdf l m ∧ (l < 1 ∨ 32 < l ∨ 64 < m)) ∧
    ∃ m, Instr.hmac 65 = .hmac m ∧ 64 < m :=
  ⟨by decide, ⟨_, _, rfl, by decide⟩, ⟨_, _, rfl, by decide⟩, ⟨_, _, rfl, by decide⟩, ⟨_, rfl, by decide⟩⟩

theorem witness_PadCompletes :
    (0 ≤ s64 State.reset.jval ∧ s64 State.reset.jval ≤ 4294967295) ∧
    0 ≤ s64 (withJval 4294967295).jval ∧ s64 (withJval 4294967295).jval ≤ 4294967295 := by decide

/-- Both clauses: -1 and 2^32. -/
theorem witness_PadRangeError :
    s64 (withJval (-1)).jval < 0 ∧ 4294967295 < s64 (withJval 4294967296).jval := by decide

/-- An empty negative range, the whole cap, and the last interval of all (rows of §2.4). -/
theorem witness_RpiStartCompletes :
    (Int.fdiv (-6000) 600 = -10 ∧ Int.fdiv (-6001) 600 = -11 ∧ s64 (withTimes (-6000) (-6001)).tend = -6001 ∧
      (-11 : Int) - -10 ≤ Config.default.cap.val ∧ (-11 : Int) < -10) ∧
    (Int.fdiv 6000000 600 = 10000 ∧ (10000 : Int) - 0 ≤ Config.default.cap.val) ∧
    (Int.fdiv (s64 (withTimes 0 2576980377599).tend) 600 = 4294967295 ∧
      (4294967295 : Int) - 4294967295 ≤ Config.default.cap.val) := by decide

/-- Each clause: over the cap, below the range, above the range; and a word that is not RPI_START. -/
theorem witness_RpiStartFails :
    ((Config.default.cap.val : Int) < Int.fdiv (s64 (withTimes 0 6000600).tend) 600 - 0) ∧
    (Int.fdiv (s64 (withTimes (-600) 0).tbegin) 600 = -1 ∧ (-1 : Int) ≤ 0) ∧
    (Int.fdiv (s64 (withTimes 2576980377000 2576980377600).tend) 600 = 4294967296 ∧
      Int.fdiv (s64 (withTimes 2576980377000 2576980377600).tbegin) 600 = 4294967295) ∧
    ((withPending 0x01000006).pending.extractLsb' 0 8 = 0x06 ∧ (withPending 0x01000006).pending ≠ 0x00000006) := by
  decide

/-- A running sequence at the first and at the last interval number. -/
theorem witness_RpiNextCompletes :
    (Inv (lastOne 0) ∧ (lastOne 0).remain ≠ 0) ∧ (Inv (lastOne 0xFFFFFFFF) ∧ (lastOne 0xFFFFFFFF).remain ≠ 0) :=
  ⟨⟨⟨by decide, by decide⟩, by decide⟩, ⟨by decide, by decide⟩, by decide⟩

theorem witness_RpiNextSeqError : State.reset.remain = 0 := by decide

/-- A completion with each of the six codes. -/
theorem witness_ResultCodeCauses :
    nextWith (engineMove (withPending 0x00000000)) (·.errcode == .ok) = true ∧
    nextWith (engineMove (withPending 0x00000008)) (·.errcode == .illegal) = true ∧
    nextWith (engineMove (withPending 0x00000002)) (·.errcode == .field) = true ∧
    nextWith (engineMove { withPending 0x00000005 with jval := u64 (-1) }) (·.errcode == .range) = true ∧
    nextWith (engineMove { withPending 0x00000006 with tend := 6000600 }) (·.errcode == .limit) = true ∧
    nextWith (engineMove (withPending 0x00000007)) (·.errcode == .seq) = true := by decide

/-- A failure that leaves REMAIN alone, and one that clears it. -/
theorem witness_FailureWritesNoResult :
    (∃ t, engineMove { withPending 0x00000107 with remain := 3 } = .next t ∧ t.errcode ≠ .ok ∧ t.remain = 3) ∧
    ∃ t, engineMove { withPending 0x00000006 with tend := 6000600, remain := 3 } = .next t ∧ t.errcode ≠ .ok ∧
      t.remain = 0 :=
  ⟨⟨_, rfl, by decide, rfl⟩, ⟨_, rfl, by decide, by decide⟩⟩

/-- The words next to the result registers of PAD and of RPI_NEXT. -/
theorem witness_CommandFrameInWindow :
    (∃ t, exec .pad State.reset = .next t) ∧ (∃ t, exec .rpiNext (lastOne 0) = .next t) ∧
    commandWrites .pad 0x1C = false ∧ commandWrites .pad 0x30 = false ∧ commandWrites .rpiNext 0x60 = false ∧
    commandWrites .rpiNext 0x6C = false :=
  ⟨⟨_, rfl⟩, ⟨_, rfl⟩, by decide, by decide, by decide, by decide⟩

theorem witness_InvKeptByStep :
    Inv (running 7) ∧ ∃ t, step (running 7) = .next t :=
  ⟨⟨by decide, by decide⟩, ⟨_, rfl⟩⟩

/-- A completion of ENCRYPT and a write of KEY0, in a running sequence. -/
theorem witness_GeneratorIsolation :
    ((∃ t, step (running 1) = .next t) ∧ mover (running 1) ≠ some .reset ∧
      completes (running 1) ≠ some .rpiStart ∧ completes (running 1) ≠ some .rpiNext) ∧
    ((∃ t, step { lastOne 7 with inputs := [.write 0x10 4 1] } = .next t) ∧
      mover { lastOne 7 with inputs := [.write 0x10 4 1] } = some .host ∧
      completes { lastOne 7 with inputs := [.write 0x10 4 1] } = none) :=
  ⟨⟨⟨_, rfl⟩, by decide, by decide, by decide⟩, ⟨⟨_, rfl⟩, by decide, by decide⟩⟩

theorem witness_WritersOfRegisters :
    ((∃ t, step (withPending 5) = .next t) ∧ mover (withPending 5) = some .engine) ∧
    (∃ t, step (withOps [.write 0x30 4 1]) = .next t) ∧ mover (withOps [.write 0x30 4 1]) = some .host :=
  ⟨⟨⟨_, rfl⟩, by decide⟩, ⟨_, rfl⟩, by decide⟩

theorem witness_BusyHoldsOperands :
    let s : State := { withPending 1 with inputs := [.write 0x10 4 1], turns := [.host] }
    s.busy = true ∧ mover s = some .host ∧ ∃ t, step s = .next t :=
  ⟨by decide, by decide, _, rfl⟩

theorem witness_PendingCommandCompletes :
    let s : State := { withPending 1 with inputs := [.read 0 4], turns := [.host] }
    s.busy = true ∧ .reset ∉ s.turns := by decide

theorem witness_WaitEnds :
    ({ withPending 1 with inputs := [.wait], turns := [.host, .host] } : State).inputs = .wait :: [] := by decide

theorem witness_ExecRunsCommandOnce :
    let s : State := { withOps (hostExecWord Config.default 5 ++ [.read 0x20 4]) with turns := [.host, .host, .host] }
    s.busy = false ∧ s.inputs = hostExecWord s.cfg 5 ++ [.read 0x20 4] ∧ .reset ∉ s.turns := by decide

/-- Each outcome of CS's function, each with a run of two steps that nothing disturbs. -/
theorem witness_RollingIdsCorrespondence :
    (∃ t, exec .rpiStart { withTimes 0 601 with inputs := hostExecWord Config.default 7 } = .next t ∧
      (match rollingIds 10000 (bytesOf State.reset.key) 0 601 with | .ok ids => ids.length == 2 | .error _ => false) = true ∧
      undisturbed 2 t = true ∧ ∃ u, core.run 2 t = .next u) ∧
    (∃ t, exec .rpiStart (withTimes 0 6000600) = .next t ∧
      (match rollingIds 10000 (bytesOf State.reset.key) 0 6000600 with | .ok _ => false | .error e => e == .limit) = true ∧
      undisturbed 2 t = true ∧ ∃ u, core.run 2 t = .next u) ∧
    (∃ t, exec .rpiStart (withTimes (-600) 0) = .next t ∧
      (match rollingIds 10000 (bytesOf State.reset.key) (-600) 0 with | .ok _ => false | .error e => e == .range) = true ∧
      undisturbed 2 t = true ∧ ∃ u, core.run 2 t = .next u) ∧
    (completes (running 7) = some .rpiNext ∧ (∃ v, step (running 7) = .next v) ∧ upcoming (running 7) ≠ []) ∧
    (completes (withPending 7) = some .rpiNext ∧ ∃ v, step (withPending 7) = .next v) :=
  ⟨⟨_, rfl, by decide, by decide, _, rfl⟩, ⟨_, rfl, by decide, by decide, _, rfl⟩,
    ⟨_, rfl, by decide, by decide, _, rfl⟩, ⟨by decide, ⟨_, rfl⟩, by decide⟩, by decide, _, rfl⟩

theorem witness_SequenceBound :
    ∃ t, exec .rpiStart { withTimes 0 601 with inputs := hostExecWord Config.default 7 } = .next t ∧
      undisturbed 2 t = true := ⟨_, rfl, by decide⟩

/-- Two states that differ in KEY, DIN, DOUT and TBEGIN, with an identifier left and with none. -/
theorem witness_RpiNextReadsGeneratorOnly :
    let s := lastOne 7
    let s' : State := { lastOne 7 with key := .replicate 4 1, din := .replicate 4 2, dout := .replicate 4 3, tbegin := 3 }
    (s'.subkey = s.subkey ∧ s'.jcur = s.jcur ∧ s'.remain = s.remain ∧ s.remain ≠ 0 ∧
      (∃ t, exec .rpiNext s = .next t) ∧ ∃ t', exec .rpiNext s' = .next t') ∧
    State.reset.remain = 0 ∧ (∃ t, exec .rpiNext State.reset = .next t) ∧
      ∃ t', exec .rpiNext { State.reset with dout := .replicate 4 3 } = .next t' :=
  ⟨⟨rfl, rfl, rfl, by decide, ⟨_, rfl⟩, _, rfl⟩, rfl, ⟨_, rfl⟩, _, rfl⟩

theorem witness_IntervalClock :
    (-1 : Int) ≤ 0 ∧ (-9223372036854775808 : Int) ≤ 9223372036854775807 := by decide

theorem witness_PadLayout : (0 : Int) ≤ 0 ∧ (0 : Int) ≤ 4294967295 ∧ (4294967295 : Int) ≤ 4294967295 := by decide

/-- The first and the last word of each clause, and the last round key. -/
theorem witness_AesKeyExpansion :
    (4 < 44 ∧ 4 % 4 = 0) ∧ (40 < 44 ∧ 40 % 4 = 0) ∧ (5 < 44 ∧ 5 % 4 ≠ 0) ∧ (43 < 44 ∧ 43 % 4 ≠ 0) ∧
    ∃ rk, (Vector.replicate 16 0 :: roundKeys (Vector.replicate 16 0))[10]? = some rk :=
  ⟨by decide, by decide, by decide, by decide, _, rfl⟩

/-- The longest message of at most three blocks. -/
theorem witness_ShaPadding : (List.replicate 129 (0 : Byte)).length ≤ 129 := by simp

theorem witness_ShaMessageSchedule :
    (List.replicate 64 (0 : Byte)).length = 64 ∧ 15 < 16 ∧ 16 ≤ 16 ∧ 63 < 64 := by simp

/-- A 16-byte key that padding fills up to 64 bytes. -/
theorem witness_HmacIgnoresKeyPadding : (List.replicate 16 (1 : Byte)).length + 48 ≤ 64 := by simp

/-- A message register that differs at byte 63 only, for M = 63; and L = 32. -/
theorem witness_MsgBeyondLengthIgnored :
    (∀ k : Fin 64, k.val < 63 →
      (bytesOf ((State.reset.msg).set 15 0xFF000000))[k] = (bytesOf State.reset.msg)[k]) ∧
    (∃ t, exec (.hmac 63) State.reset = .next t) ∧
    (∃ t, exec (.hmac 63) (State.reset.setMsg ((State.reset.msg).set 15 0xFF000000)) = .next t) ∧ 32 ≤ 32 :=
  ⟨by decide, ⟨_, rfl⟩, ⟨_, rfl⟩, by decide⟩

/-- The first and the last full round. -/
theorem witness_AesCipherRounds : (1 ≤ 1 ∧ 1 ≤ 9) ∧ (1 ≤ 9 ∧ 9 ≤ 9) ∧ 10 ≤ 10 := by decide

theorem witness_ShaCompression : (List.replicate 64 (0xFF : Byte)).length = 64 ∧ 0 < 64 ∧ 63 < 64 := by simp

/-- The empty message has one block; a message of 56 bytes has a second one. -/
theorem witness_Sha256Composition :
    (shaBlocks (shaPad []))[0]?.isSome = true ∧ (shaBlocks (shaPad (List.replicate 56 0x61)))[1]?.isSome = true := by
  decide +kernel

/-- Keys at the two sides of the block size, and the least and the greatest L. -/
theorem witness_HmacComposition :
    (List.replicate 64 (1 : Byte)).length ≤ 64 ∧ 64 < (List.replicate 65 (1 : Byte)).length ∧
    (1 ≤ 1 ∧ 1 ≤ 32) ∧ 1 ≤ 32 ∧ 32 ≤ 32 := by simp

end Sys2Proof.Tests
end

section
/-! PROOFS, family 10: the state, its invariants, and what a step writes (spec/10_state.md). -/

namespace Sys2Proof.Machine

/-! ## One step, by its mover (R49, R200) -/

/-- Reset has priority over both agents (R187). -/
theorem mover_of_head_reset {s : State} (h : s.turns.head? = some .reset) : mover s = some .reset := by
  simp [mover, h]

theorem step_of_mover_reset {s : State} (h : mover s = some .reset) :
    step s = .next s.popTurn.applyReset := by
  simp [step, h]

theorem step_of_mover_engine {s : State} (h : mover s = some .engine) :
    step s = engineMove s.popTurn := by
  simp [step, h]

theorem step_of_mover_host {s : State} (h : mover s = some .host) :
    step s = .next (hostMove s.popTurn) := by
  simp [step, h]

/-- While a command is pending the host moves only on a turn of its own (R206). -/
theorem turns_of_busy_host {s : State} (hb : s.busy = true) (h : mover s = some .host) :
    ∃ ts, s.turns = .host :: ts := by
  cases hs : s.turns with
  | nil => simp [mover, hs, hb] at h
  | cons turn ts => cases turn <;> simp_all [mover]

/-! ## What an engine step does whatever the pending word is (R37) -/

/-- An engine move completes and leaves the operands and the rest alone, illegal words included. -/
theorem engineMove_common {s t : State} (h : engineMove s = .next t) :
    KeepsOperands s t ∧ KeepsRest s t ∧ CompletedWith t.errcode s t := by
  obtain ⟨i, -, hx⟩ | ⟨e, -, rfl⟩ := engineMove_cases h
  · exact exec_common hx
  · exact ⟨⟨rfl, rfl, rfl, rfl⟩, ⟨rfl, rfl, rfl, rfl, rfl, rfl⟩, ⟨rfl, rfl, rfl⟩⟩

/-- The same for a whole step: only the turn is used up besides. -/
theorem engineStep_common {s t : State} (hm : mover s = some .engine) (h : step s = .next t) :
    CompletedWith t.errcode s t ∧ KeepsOperands s t ∧ KeepsRest s.popTurn t := by
  rw [step_of_mover_engine hm] at h
  obtain ⟨⟨hk, hb, he, hmsg⟩, hr, ⟨hc, hl, hbusy⟩⟩ := engineMove_common h
  exact ⟨⟨hc, hl, hbusy⟩, ⟨hk, hb, he, hmsg⟩, hr⟩

/-- Settles O9: an engine step answers, and what every engine step does alike is the claim. -/
theorem engineStepCompletes : Obligations.EngineStepCompletes := by
  intro s hm
  obtain ⟨t, ht⟩ := step_next s
  exact ⟨t, ht, engineStep_common hm ht⟩

/-- Settles O40: the engine keeps the operands, and a host move keeps what the engine writes. -/
theorem writersOfRegisters : Obligations.WritersOfRegisters := by
  intro s t h
  refine ⟨fun hm => ?_, fun hm => ?_⟩
  · obtain ⟨-, hops, -⟩ := engineStep_common hm h
    exact hops
  · obtain rfl : hostMove s.popTurn = t := by simpa [step_of_mover_host hm] using h
    obtain ⟨⟨hsk, hjc, hjl, hrem⟩, herr, hlast, hdout, hdk, -, -⟩ := hostMove_keeps s.popTurn
    exact ⟨⟨hsk, hjc, hjl, hrem⟩, herr, hlast, hdout, hdk⟩

/-! ## The invariants of R35 -/

/-- Without a running sequence R35 (b) and (c) hold. -/
theorem inv_of_remain_eq_zero {s : State} (h : s.remain = 0) : Inv s :=
  ⟨fun hne => absurd h hne, by simp [h]⟩

/-- R35 (b) and (c) are about the generator and CAP only. -/
theorem Inv.of_keepsGenerator {s t : State} (hi : Inv s) (hg : KeepsGenerator s t)
    (hc : t.cfg = s.cfg) : Inv t := by
  obtain ⟨-, hjc, hjl, hr⟩ := hg
  refine ⟨?_, ?_⟩
  · rw [hjc, hjl, hr]; exact hi.position
  · rw [hr, hc]; exact hi.bound

/-- The checks of RPI_START pass exactly for a range within the cap that is empty or fits (R162). -/
theorem startCode_eq_ok_iff {cap : Nat} {jB jE : Int} :
    startCode cap jB jE = .ok ↔ jE - jB ≤ cap ∧ (jB ≤ jE → 0 ≤ jB ∧ jE ≤ 4294967295) := by
  unfold startCode
  split_ifs <;> simp only [true_iff, false_iff] <;> omega

/-- A count within CAP + 1 is read back from REMAIN's 32 bits, because CAP is at most 2^32 - 2 (R29). -/
theorem remain_of_rangeCount (cap : Fin 4294967295) {jB jE : Int} (h : jE - jB ≤ cap.val) :
    (BitVec.ofNat 32 (rangeCount jB jE)).toNat = rangeCount jB jE := by
  have hcap := cap.isLt
  rw [BitVec.toNat_ofNat, Nat.mod_eq_of_lt]
  unfold rangeCount
  omega

/-- RPI_START sets up a sequence inside the interval numbers and the cap, or none (R162, R165). -/
theorem execRpiStart_inv {s t : State} (h : execRpiStart s = .next t) : Inv t := by
  obtain ⟨c, -, -, rfl⟩ | ⟨hok, rfl⟩ := execRpiStart_cases h
  · exact inv_of_remain_eq_zero rfl
  · obtain ⟨hlimit, hrange⟩ := startCode_eq_ok_iff.mp hok
    have hcount := remain_of_rangeCount s.cfg.cap hlimit
    refine ⟨fun hne => ?_, ?_⟩
    · have hpos : rangeCount (interval (s64 s.tbegin)) (interval (s64 s.tend)) ≠ 0 := by
        intro h0
        exact hne (by simp [h0])
      simp only [State.complete_jcur, State.complete_jlast, State.complete_remain,
        State.setRemain_jcur, State.setRemain_jlast, State.setRemain_remain, State.setJlast_jcur,
        State.setJlast_jlast, State.setJcur_jcur, s64_u64_interval, hcount]
      unfold rangeCount at hpos ⊢
      omega
    · simp only [State.complete_remain, State.setRemain_remain, hcount]
      show rangeCount _ _ ≤ s.cfg.cap.val + 1
      unfold rangeCount
      omega

/-- RPI_NEXT moves the position by one as it counts REMAIN down by one (R163). -/
theorem execRpiNext_inv {s t : State} (hi : Inv s) (h : execRpiNext s = .next t) : Inv t := by
  obtain ⟨-, rfl⟩ | ⟨hne, rfl⟩ := execRpiNext_cases h
  · exact hi.of_keepsGenerator ⟨rfl, rfl, rfl, rfl⟩ rfl
  · obtain ⟨hlow, hle, hhigh, hcount⟩ := hi.position hne
    have hbound := hi.bound
    have hpos : s.remain.toNat ≠ 0 := fun h0 => hne (BitVec.eq_of_toNat_eq h0)
    have hdec : (s.remain - 1).toNat = s.remain.toNat - 1 := by
      have := s.remain.isLt
      rw [BitVec.toNat_sub]
      simp
      omega
    have hjcur : s64 (u64 (s64 s.jcur + 1)) = s64 s.jcur + 1 := s64_u64 (by omega) (by omega)
    refine ⟨fun hleft => ?_, ?_⟩
    · have hleft' : (s.remain - 1).toNat ≠ 0 := fun h0 => hleft (BitVec.eq_of_toNat_eq h0)
      simp only [State.complete_jcur, State.complete_jlast, State.complete_remain,
        State.setRemain_jcur, State.setRemain_jlast, State.setRemain_remain, State.setJcur_jcur,
        State.setJcur_jlast, State.setDout_jlast, hjcur]
      omega
    · simp only [State.complete_remain, State.setRemain_remain]
      show (s.remain - 1).toNat ≤ s.cfg.cap.val + 1
      omega

/-- Every command keeps R35: the two of the generator by their effect, the others by their frame. -/
theorem exec_inv {i : Instr} {s t : State} (hi : Inv s) (h : exec i s = .next t) : Inv t := by
  obtain ⟨-, hrest, -⟩ := exec_common h
  by_cases hstart : i = .rpiStart
  · subst hstart; exact execRpiStart_inv h
  by_cases hnext : i = .rpiNext
  · subst hnext; exact execRpiNext_inv hi h
  exact hi.of_keepsGenerator (exec_keeps_generator h hstart hnext) hrest.cfg

/-- An engine move keeps R35: an illegal word writes only ERRCODE and LASTCMD. -/
theorem engineMove_inv {s t : State} (hi : Inv s) (h : engineMove s = .next t) : Inv t := by
  obtain ⟨i, -, hx⟩ | ⟨e, -, rfl⟩ := engineMove_cases h
  · exact exec_inv hi hx
  · exact hi.of_keepsGenerator ⟨rfl, rfl, rfl, rfl⟩ rfl

/-- Settles O38, by the mover of the step: a reset ends the sequence, the engine keeps R35 command by
command, and nobody else writes the generator. -/
theorem invKeptByStep : Obligations.InvKeptByStep := by
  intro s t hi h
  have hpop : Inv s.popTurn := hi.of_keepsGenerator ⟨rfl, rfl, rfl, rfl⟩ rfl
  obtain ⟨-, rfl⟩ | ⟨-, he⟩ | ⟨-, rfl⟩ | ⟨-, rfl⟩ := step_cases h
  · exact inv_of_remain_eq_zero rfl
  · exact engineMove_inv hpop he
  · obtain ⟨hg, -, -, -, -, hcfg, -⟩ := hostMove_keeps s.popTurn
    exact hpop.of_keepsGenerator hg hcfg
  · exact hpop

/-- Settles O37: no sequence runs at reset. -/
theorem invAtReset : Obligations.InvAtReset := inv_of_remain_eq_zero rfl

/-! ## Reset (R38, R200) -/

theorem halfOf_zero (h : Half) : halfOf h 0 = 0 := by
  cases h <;> decide

/-- After a reset every word of the window reads 0 (R38, R44). -/
theorem readReg_applyReset (r : WindowReg) (s : State) : readReg r s.applyReset = 0 := by
  cases r with
  | key i | din i | dout i | subkey i | msg i | dk i => simp [readReg, State.reset]
  | tbegin h | tend h | jval h | jcur h | jlast h => exact halfOf_zero h
  | status => exact (by decide : statusWord State.reset = 0)
  | cmd | errcode | lastcmd | remain | reserved => rfl

theorem hostRead_applyReset (off : Offset) (size : Nat) (s : State) :
    hostRead off size s.applyReset = 0 := by
  simp [hostRead, readReg_applyReset]

/-- The reset state is what a reset makes of itself. -/
theorem applyReset_reset : State.reset.applyReset = State.reset := rfl

/-- Settles O12: a reset turn is a reset step, and a reset leaves 0 to read, whatever the state was. -/
theorem resetClearsEverything : Obligations.ResetClearsEverything := by
  refine ⟨fun s h => ?_, fun off size => ?_, rfl, rfl, rfl⟩
  · exact ⟨_, step_of_mover_reset (mover_of_head_reset h),
      fun off size => hostRead_applyReset off size _, rfl, rfl, rfl⟩
  · rw [← applyReset_reset]
    exact hostRead_applyReset off size _

/-! ## Acceptance (R36) and the placed word (R37) -/

/-- An aligned 32-bit write to an idle block acts on the word of its offset (R43, R45 to R47). -/
theorem hostWrite_of_idle {off : Offset} {s : State} (v : Word) (hb : s.busy = false)
    (ha : off.toNat % 4 = 0) : hostWrite off 4 v s = writeReg (windowReg off) v s := by
  simp [hostWrite, honoured, ha, hb]

/-- Settles O11: offset 0 is CMD, and a write to CMD is acceptance. -/
theorem cmdWriteAccepts : Obligations.CmdWriteAccepts := by
  intro s v hb
  exact hostWrite_of_idle v hb rfl

/-- A word is a number up to a multiple of `2 ^ 32`. -/
theorem ofNat_mod_word (w : Nat) : BitVec.ofNat 32 (w % 2 ^ 32) = BitVec.ofNat 32 w :=
  BitVec.eq_of_toNat_eq (by simp)

/-- A table word of 32 bits is a command exactly when the word it names decodes to it (R66, R68). -/
theorem decodeTableWord_32 {w : Nat} {i : Instr} :
    decodeTableWord 32 w = some i ↔ decode (BitVec.ofNat 32 w) = .ok i := by
  have hlt : w % 2 ^ 32 < 2 ^ 32 := Nat.mod_lt _ (by decide)
  simp only [decodeTableWord, hlt, if_true, ofNat_mod_word]
  cases decode (BitVec.ofNat 32 w) <;> simp

/-- Placing a word makes the engine the next to move, on the state with the word accepted. -/
theorem step_placeCommand (s : State) (w : Word) : step (placeCommand s w) = engineMove (s.accept w) := by
  have hm : mover (placeCommand s w) = some .engine := rfl
  rw [step_of_mover_engine hm]
  rfl

/-- An engine move runs the command the pending word decodes to (R66). -/
theorem engineMove_of_decode {s : State} {i : Instr} (h : decode s.pending = .ok i) :
    engineMove s = exec i s := by
  simp [engineMove, h]

/-- Settles O7: the placed word is accepted, moves the engine, and decodes to the command. -/
theorem placedWordRuns : Obligations.PlacedWordRuns := by
  intro s w i h
  rw [State.withFetchWord, ofNat_mod_word, step_placeCommand]
  exact engineMove_of_decode (decodeTableWord_32.mp h)

/-! ## DROP (R20, R185) -/

theorem honoured_iff {off : Offset} {size : Nat} :
    honoured off size = true ↔ size = 4 ∧ off.toNat % 4 = 0 := by
  simp [honoured]

/-- Where a word of the window lies: from the first offset on, below the second (R18). -/
def WindowReg.range : WindowReg → Nat × Nat
  | .cmd => (0x00, 0x04)
  | .status => (0x04, 0x08)
  | .errcode => (0x08, 0x0C)
  | .lastcmd => (0x0C, 0x10)
  | .key _ => (0x10, 0x20)
  | .din _ => (0x20, 0x30)
  | .dout _ => (0x30, 0x40)
  | .tbegin _ => (0x40, 0x48)
  | .tend _ => (0x48, 0x50)
  | .jval _ => (0x50, 0x58)
  | .jcur _ => (0x58, 0x60)
  | .jlast _ => (0x60, 0x68)
  | .remain => (0x68, 0x6C)
  | .subkey _ => (0x70, 0x80)
  | .msg _ => (0x80, 0xC0)
  | .dk _ => (0xC0, 0xE0)
  | .reserved => (0x6C, 0x100)

/-- An aligned offset lies in the range of its register: a check of the map at every offset. -/
theorem windowReg_mem_range {off : Offset} (ha : off.toNat % 4 = 0) :
    (windowReg off).range.1 ≤ off.toNat ∧ off.toNat < (windowReg off).range.2 := by
  revert off
  decide

/-- An aligned offset outside a register's range is no word of that register. -/
theorem windowReg_ne {off : Offset} {r : WindowReg} {lo hi : Nat} (ha : off.toNat % 4 = 0)
    (hr : r.range = (lo, hi)) (h : off.toNat < lo ∨ hi ≤ off.toNat) : windowReg off ≠ r := by
  rintro rfl
  have hmem := windowReg_mem_range ha
  rw [hr] at hmem
  omega

/-- STATUS is one word of the window (R18). -/
theorem windowReg_eq_status {off : Offset} (ha : off.toNat % 4 = 0) (h : windowReg off = .status) :
    off = 0x04 := by
  have hmem := windowReg_mem_range ha
  rw [h] at hmem
  dsimp only [WindowReg.range] at hmem
  bv_omega

theorem writeStatus_drop (v : Word) (s : State) :
    (writeStatus v s).drop = (s.drop && !clearsDrop v) := by
  unfold writeStatus
  cases clearsDrop v <;> simp

theorem windowOffset_eq_some {cfg : Config} {addr : Nat} {off : Offset}
    (h : windowOffset cfg addr = some off) : addr = busAddress cfg off := by
  unfold windowOffset at h
  split_ifs at h with hin
  obtain rfl : BitVec.ofNat 8 (addr - cfg.base) = off := by simpa using h
  rw [busAddress, BitVec.toNat_ofNat]
  omega

/-- The one write that lowers DROP: 32 bits wide, to STATUS, with bit 2 set (R20). -/
theorem hostWrite_lowers_drop {off : Offset} {size : Nat} {v : Word} {s : State} (hd : s.drop = true)
    (hl : (hostWrite off size v s).drop = false) : off = 0x04 ∧ size = 4 ∧ v.getLsbD 2 = true := by
  have hhon : honoured off size = true := by
    by_contra hn
    simp [hostWrite, hn] at hl
  obtain ⟨hsize, ha⟩ := honoured_iff.mp hhon
  obtain h | ⟨hst, h⟩ | ⟨-, -, h⟩ | ⟨-, hrw, h⟩ := hostWrite_cases off size v s
  · simp [h] at hl
  · rw [h, writeStatus_drop, hd] at hl
    exact ⟨windowReg_eq_status ha hst, hsize, by simpa [clearsDrop] using hl⟩
  · simp [h, hd] at hl
  · cases hr : windowReg off <;> simp_all [WindowReg.isRW, writeReg]

/-- A host move lowers DROP only by such a write, made at STATUS's address (R40, R49). -/
theorem hostMove_lowers_drop {s : State} (hd : s.drop = true) (hl : (hostMove s).drop = false) :
    ∃ v rest, s.inputs = .write (busAddress s.cfg 0x04) 4 v :: rest ∧ v.getLsbD 2 = true := by
  unfold hostMove at hl
  split at hl
  · simp [hd] at hl
  · rename_i op rest hin
    cases op with
    | read addr size =>
      simp only [hostAct] at hl
      split at hl <;> simp [hd] at hl
    | write addr size v =>
      simp only [hostAct] at hl
      split at hl
      · rename_i off hoff
        obtain ⟨rfl, rfl, hbit⟩ := hostWrite_lowers_drop hd hl
        exact ⟨v, rest, by rw [hin, windowOffset_eq_some hoff], hbit⟩
      · simp [hd] at hl
    | wait => simp [hostAct, hd] at hl

/-- Settles O20: the engine and an idle step keep DROP, so it falls by a reset or by a host move. -/
theorem dropIsSticky : Obligations.DropIsSticky := by
  intro s t h hd hl
  obtain ⟨hm, -⟩ | ⟨hm, -⟩ | ⟨hm, rfl⟩ | ⟨-, rfl⟩ := step_cases h
  · exact .inl hm
  · obtain ⟨-, -, hrest⟩ := engineStep_common hm h
    have hkept : t.drop = s.drop := hrest.drop
    simp [hkept, hd] at hl
  · exact .inr ⟨hm, hostMove_lowers_drop (s := s.popTurn) hd hl⟩
  · simp [hd] at hl

/-! ## Which words a command may change (R65, R182) -/

/-- The effects a command can have on the state (R100, R120, R121, R142 to R144, R162 to R165): the
registers it may write before it completes. -/
inductive CommandEffect (s : State) : Instr → State → Prop
  | code (i : Instr) (c : Code) : CommandEffect s i (s.complete c)
  | encrypt (v : Vector Word 4) : CommandEffect s .encrypt ((s.setDout v).complete .ok)
  | hkdf (l m : Nat) (v : Vector Word 8) : CommandEffect s (.hkdf l m) ((s.setDk v).complete .ok)
  | hmac (m : Nat) (v : Vector Word 8) : CommandEffect s (.hmac m) ((s.setDk v).complete .ok)
  | interval (tsel : TimeSel) (v : DWord) :
      CommandEffect s (.interval tsel) ((s.setJval v).complete .ok)
  | pad (v : Vector Word 4) : CommandEffect s .pad ((s.setDin v).complete .ok)
  | rpiStart (sk : Vector Word 4) (jB jE : DWord) (n : Word) :
      CommandEffect s .rpiStart
        (((((s.setSubkey sk).setJcur jB).setJlast jE).setRemain n).complete .ok)
  | rpiStartFails (c : Code) : CommandEffect s .rpiStart ((s.setRemain 0).complete c)
  | rpiNext (v : Vector Word 4) (j : DWord) (n : Word) :
      CommandEffect s .rpiNext ((((s.setDout v).setJcur j).setRemain n).complete .ok)

/-- Every command has one of its effects. -/
theorem exec_effect {i : Instr} {s t : State} (h : exec i s = .next t) : CommandEffect s i t := by
  cases i with
  | nop =>
    obtain rfl : s.complete .ok = t := by simpa [exec, execNop] using h
    exact .code ..
  | encrypt =>
    simp only [exec, execEncrypt, Host.Outcome.next.injEq] at h
    subst h
    exact .encrypt ..
  | hkdf l m =>
    simp only [exec, execHkdf, Host.Outcome.next.injEq] at h
    split at h <;> subst h
    · exact .code ..
    · exact .hkdf ..
  | hmac m =>
    simp only [exec, execHmac, Host.Outcome.next.injEq] at h
    split at h <;> subst h
    · exact .code ..
    · exact .hmac ..
  | interval tsel =>
    simp only [exec, execInterval, Host.Outcome.next.injEq] at h
    subst h
    exact .interval ..
  | pad =>
    simp only [exec, execPad, Host.Outcome.next.injEq] at h
    split at h <;> subst h
    · exact .pad ..
    · exact .code ..
  | rpiStart =>
    obtain ⟨c, -, -, rfl⟩ | ⟨-, rfl⟩ := execRpiStart_cases h
    · exact .rpiStartFails ..
    · exact .rpiStart ..
  | rpiNext =>
    obtain ⟨-, rfl⟩ | ⟨-, rfl⟩ := execRpiNext_cases h
    · exact .code ..
    · exact .rpiNext ..

section
variable {r : WindowReg} (s : State)

theorem readReg_complete (c : Code) (hs : r ≠ .status) (he : r ≠ .errcode) (hl : r ≠ .lastcmd) :
    readReg r (s.complete c) = readReg r s := by
  cases r with
  | status => exact absurd rfl hs
  | errcode => exact absurd rfl he
  | lastcmd => exact absurd rfl hl
  | _ => rfl

theorem readReg_setDin (v : Vector Word 4) (h : ∀ i, r ≠ .din i) :
    readReg r (s.setDin v) = readReg r s := by
  cases r with
  | din i => exact absurd rfl (h i)
  | _ => rfl

theorem readReg_setDout (v : Vector Word 4) (h : ∀ i, r ≠ .dout i) :
    readReg r (s.setDout v) = readReg r s := by
  cases r with
  | dout i => exact absurd rfl (h i)
  | _ => rfl

theorem readReg_setJval (v : DWord) (h : ∀ half, r ≠ .jval half) :
    readReg r (s.setJval v) = readReg r s := by
  cases r with
  | jval half => exact absurd rfl (h half)
  | _ => rfl

theorem readReg_setJcur (v : DWord) (h : ∀ half, r ≠ .jcur half) :
    readReg r (s.setJcur v) = readReg r s := by
  cases r with
  | jcur half => exact absurd rfl (h half)
  | _ => rfl

theorem readReg_setJlast (v : DWord) (h : ∀ half, r ≠ .jlast half) :
    readReg r (s.setJlast v) = readReg r s := by
  cases r with
  | jlast half => exact absurd rfl (h half)
  | _ => rfl

theorem readReg_setSubkey (v : Vector Word 4) (h : ∀ i, r ≠ .subkey i) :
    readReg r (s.setSubkey v) = readReg r s := by
  cases r with
  | subkey i => exact absurd rfl (h i)
  | _ => rfl

theorem readReg_setDk (v : Vector Word 8) (h : ∀ i, r ≠ .dk i) :
    readReg r (s.setDk v) = readReg r s := by
  cases r with
  | dk i => exact absurd rfl (h i)
  | _ => rfl

/-- REMAIN shows in STATUS too, as GEN_ACTIVE (R20). -/
theorem readReg_setRemain (v : Word) (hs : r ≠ .status) (h : r ≠ .remain) :
    readReg r (s.setRemain v) = readReg r s := by
  cases r with
  | status => exact absurd rfl hs
  | remain => exact absurd rfl h
  | _ => rfl

end

/-- A completion shows at the offsets of STATUS, ERRCODE and LASTCMD only (R37). -/
theorem readReg_complete_outside {off : Offset} (ha : off.toNat % 4 = 0)
    (ho : off.toNat < 0x04 ∨ 0x10 ≤ off.toNat) (s : State) (c : Code) :
    readReg (windowReg off) (s.complete c) = readReg (windowReg off) s :=
  readReg_complete s c (windowReg_ne ha rfl (by omega)) (windowReg_ne ha rfl (by omega))
    (windowReg_ne ha rfl (by omega))

/-- At an aligned offset that a command does not write, its effect leaves the word as it reads: each
update is left out by the range of its register. -/
theorem readReg_commandEffect {i : Instr} {s t : State} {off : Offset} (he : CommandEffect s i t)
    (ha : off.toNat % 4 = 0) (hw : commandWrites i off = false) :
    readReg (windowReg off) t = readReg (windowReg off) s := by
  have hdone : off.toNat < 0x04 ∨ 0x10 ≤ off.toNat := by
    simp only [commandWrites, Bool.or_eq_false_iff, Bool.and_eq_false_iff,
      decide_eq_false_iff_not] at hw
    omega
  have hcomplete := readReg_complete_outside ha hdone
  have hstatus : windowReg off ≠ .status := windowReg_ne ha rfl (by omega)
  cases he <;>
    simp only [commandWrites, Bool.or_eq_false_iff, Bool.and_eq_false_iff,
      decide_eq_false_iff_not] at hw
  case code c => exact hcomplete s c
  case encrypt v => rw [hcomplete, readReg_setDout _ _ fun _ => windowReg_ne ha rfl (by omega)]
  case hkdf l m v => rw [hcomplete, readReg_setDk _ _ fun _ => windowReg_ne ha rfl (by omega)]
  case hmac m v => rw [hcomplete, readReg_setDk _ _ fun _ => windowReg_ne ha rfl (by omega)]
  case interval tsel v => rw [hcomplete, readReg_setJval _ _ fun _ => windowReg_ne ha rfl (by omega)]
  case pad v => rw [hcomplete, readReg_setDin _ _ fun _ => windowReg_ne ha rfl (by omega)]
  case rpiStart sk jB jE n =>
    rw [hcomplete, readReg_setRemain _ _ hstatus (windowReg_ne ha rfl (by omega)),
      readReg_setJlast _ _ fun _ => windowReg_ne ha rfl (by omega),
      readReg_setJcur _ _ fun _ => windowReg_ne ha rfl (by omega),
      readReg_setSubkey _ _ fun _ => windowReg_ne ha rfl (by omega)]
  case rpiStartFails c =>
    rw [hcomplete, readReg_setRemain _ _ hstatus (windowReg_ne ha rfl (by omega))]
  case rpiNext v j n =>
    rw [hcomplete, readReg_setRemain _ _ hstatus (windowReg_ne ha rfl (by omega)),
      readReg_setJcur _ _ fun _ => windowReg_ne ha rfl (by omega),
      readReg_setDout _ _ fun _ => windowReg_ne ha rfl (by omega)]

/-- Settles O36: a malformed access reads 0 before and after, any other one reads its word. -/
theorem commandFrameInWindow : Obligations.CommandFrameInWindow := by
  intro i s t h off size hw
  by_cases hh : honoured off size = true
  · obtain ⟨-, ha⟩ := honoured_iff.mp hh
    simp only [hostRead, hh, if_true]
    exact readReg_commandEffect (exec_effect h) ha hw
  · simp [hostRead, hh]

/-! ## A pending command completes (R37, R206) -/

/-- While busy a host write can only touch DROP, so the command stays pending (R45). -/
theorem hostWrite_keeps_pending {s : State} (hb : s.busy = true) (off : Offset) (size : Nat) (v : Word) :
    (hostWrite off size v s).busy = true ∧ (hostWrite off size v s).pending = s.pending := by
  obtain h | ⟨-, h⟩ | ⟨hidle, -⟩ | ⟨hidle, -⟩ := hostWrite_cases off size v s
  · rw [h]; exact ⟨hb, rfl⟩
  · rw [h, writeStatus]; split <;> exact ⟨hb, rfl⟩
  · simp [hb] at hidle
  · simp [hb] at hidle

/-- No host move completes or replaces a pending command (R45, R204). -/
theorem hostMove_keeps_pending {s : State} (hb : s.busy = true) :
    (hostMove s).busy = true ∧ (hostMove s).pending = s.pending := by
  unfold hostMove
  split
  · exact ⟨hb, rfl⟩
  · rename_i op rest _
    cases op with
    | read addr size => simp only [hostAct]; split <;> exact ⟨hb, rfl⟩
    | write addr size v =>
      simp only [hostAct]
      split
      · exact hostWrite_keeps_pending hb _ _ _
      · exact ⟨hb, rfl⟩
    | wait => exact ⟨hb, rfl⟩

theorem reset_mem_of_mover {s : State} (h : mover s = some .reset) : .reset ∈ s.turns := by
  cases hs : s.turns with
  | nil =>
    simp only [mover, hs, List.head?_nil] at h
    split_ifs at h <;> simp at h
  | cons turn ts =>
    cases turn with
    | reset => exact List.mem_cons_self
    | host | engine =>
      simp only [mover, hs, List.head?_cons] at h
      split_ifs at h <;> simp at h

/-- A step of a busy block ends the command, by completion or by a reset, or it is the host's: then it
uses up a turn and the command stays pending. -/
theorem step_of_busy {s t : State} (hb : s.busy = true) (h : step s = .next t) :
    (t.busy = false ∧ (.reset ∉ s.turns → t.lastcmd = s.pending)) ∨
    (s.turns = .host :: t.turns ∧ t.busy = true ∧ t.pending = s.pending) := by
  obtain ⟨hm, rfl⟩ | ⟨hm, -⟩ | ⟨hm, rfl⟩ | ⟨hm, -⟩ := step_cases h
  · exact .inl ⟨rfl, fun hno => absurd (reset_mem_of_mover hm) hno⟩
  · obtain ⟨⟨-, hlast, hidle⟩, -, -⟩ := engineStep_common hm h
    exact .inl ⟨hidle, fun _ => hlast⟩
  · obtain ⟨ts, hts⟩ := turns_of_busy_host hb hm
    obtain ⟨-, -, -, -, -, -, hturns⟩ := hostMove_keeps s.popTurn
    exact .inr ⟨by simp [hturns, hts], hostMove_keeps_pending (s := s.popTurn) hb⟩
  · obtain ⟨hidle, -⟩ := idle_of_mover_none hm
    simp [hb] at hidle

/-- Settles O42, by induction on the number of turns left, which a step of the host lowers. -/
theorem pendingCommandCompletes : Obligations.PendingCommandCompletes := by
  intro s hb
  induction hlen : s.turns.length using Nat.strong_induction_on generalizing s with
  | h len ih =>
    obtain ⟨t, ht⟩ := step_next s
    obtain ⟨hidle, hlast⟩ | ⟨hturns, hbt, hpend⟩ := step_of_busy hb ht
    · exact ⟨1, by omega, t, run_succ ht 0, hidle, hlast⟩
    · have hless : t.turns.length < len := by simp [← hlen, hturns]
      obtain ⟨n, hn, u, hrun, hidle, hlast⟩ := ih _ hless t hbt rfl
      refine ⟨n + 1, by omega, u, (run_succ ht n).trans hrun, hidle, fun hno => ?_⟩
      rw [← hpend]
      exact hlast fun hmem => hno (hturns ▸ List.mem_cons_of_mem _ hmem)

/-! ## MSG beyond the length (R31, R119 to R121) -/

/-- Two MSG registers that agree below `m` have the same first `m` bytes. -/
theorem msgPrefix_setMsg {s : State} {msg' : Vector Word 16} {m : Nat}
    (h : ∀ k : Fin 64, k.val < m → (bytesOf msg')[k] = (bytesOf s.msg)[k]) :
    msgPrefix (s.setMsg msg') m = msgPrefix s m := by
  apply List.ext_getElem
  · simp [msgPrefix]
  · intro k hk _
    simp only [msgPrefix, List.length_take, Vector.length_toList] at hk
    simpa [msgPrefix] using h ⟨k, by omega⟩ (by simp; omega)

/-- HMAC reads MSG through its first `m` bytes: another MSG with the same ones is only carried along. -/
theorem execHmac_setMsg {s t : State} {msg' : Vector Word 16} {m : Nat}
    (hmsg : msgPrefix (s.setMsg msg') m = msgPrefix s m) (h : execHmac m s = .next t) :
    execHmac m (s.setMsg msg') = .next (t.setMsg msg') := by
  simp only [execHmac, hmsg, State.setMsg_key, Host.Outcome.next.injEq] at h ⊢
  subst h
  split <;> rfl

/-- The same for HKDF. -/
theorem execHkdf_setMsg {s t : State} {msg' : Vector Word 16} {l m : Nat}
    (hmsg : msgPrefix (s.setMsg msg') m = msgPrefix s m) (h : execHkdf l m s = .next t) :
    execHkdf l m (s.setMsg msg') = .next (t.setMsg msg') := by
  simp only [execHkdf, hmsg, State.setMsg_key, Host.Outcome.next.injEq] at h ⊢
  subst h
  split <;> rfl

/-- Settles O55: the commands read MSG through its first `m` bytes only, and HKDF cuts one block. -/
theorem msgBeyondLengthIgnored : Obligations.MsgBeyondLengthIgnored := by
  refine ⟨fun s t t' msg' m i hi hagree h h' => ?_, fun ikm info l hl => ?_⟩
  · have hmsg := msgPrefix_setMsg hagree
    have hcarried : exec i (s.setMsg msg') = .next (t.setMsg msg') := by
      obtain rfl | ⟨l, rfl⟩ := hi
      · exact execHmac_setMsg hmsg h
      · exact execHkdf_setMsg hmsg h
    obtain rfl : t.setMsg msg' = t' := by simpa [hcarried] using h'
    exact ⟨rfl, rfl⟩
  · rw [hkdf, hkdf, List.take_take, min_eq_left hl]

end Sys2Proof.Machine
end

section
/-! PROOFS, family 20: the register window and the host's accesses (spec/20_memory.md). -/

namespace Sys2Proof.Machine

/-! ## The host's own record (R49, R207, log entry 1) -/

/-- The state with another record of the host: its accesses to come, the turns and the values read. -/
def State.withRecord (s : State) (ops : List HostOp) (ts : List Turn) (rs : List Word) : State :=
  { s with inputs := ops, turns := ts, reads := rs }

/-- A read does not look at the host's record. -/
theorem hostRead_withRecord (off : Offset) (size : Nat) (s : State) (ops : List HostOp)
    (ts : List Turn) (rs : List Word) :
    hostRead off size (s.withRecord ops ts rs) = hostRead off size s := by
  unfold hostRead
  cases windowReg off <;> rfl

theorem hostRead_popTurn (off : Offset) (size : Nat) (s : State) :
    hostRead off size s.popTurn = hostRead off size s :=
  hostRead_withRecord off size s s.inputs s.turns.tail s.reads

section
variable (s : State) (ops : List HostOp) (ts : List Turn) (rs : List Word)

@[simp] theorem State.withRecord_cfg : (s.withRecord ops ts rs).cfg = s.cfg := rfl
@[simp] theorem State.withRecord_pending : (s.withRecord ops ts rs).pending = s.pending := rfl
@[simp] theorem State.withRecord_tbegin : (s.withRecord ops ts rs).tbegin = s.tbegin := rfl
@[simp] theorem State.withRecord_tend : (s.withRecord ops ts rs).tend = s.tend := rfl
@[simp] theorem State.withRecord_jval : (s.withRecord ops ts rs).jval = s.jval := rfl
@[simp] theorem State.withRecord_remain : (s.withRecord ops ts rs).remain = s.remain := rfl

end

/-- A command neither looks at the host's record nor writes it. -/
theorem exec_withRecord {i : Instr} {s t : State} (h : exec i s = .next t) (ops : List HostOp)
    (ts : List Turn) (rs : List Word) :
    exec i (s.withRecord ops ts rs) = .next (t.withRecord ops ts rs) := by
  cases i <;> cases h
  case nop | encrypt | interval tsel => rfl
  case hkdf l m => simp only [exec, execHkdf]; split <;> rfl
  case hmac m => simp only [exec, execHmac]; split <;> rfl
  case pad =>
    by_cases hfit : fitsPad (s64 s.jval) = true <;>
      simp only [exec, execPad, State.withRecord_jval, hfit, ↓reduceIte] <;> rfl
  case rpiStart =>
    simp only [exec, execRpiStart, State.withRecord_cfg, State.withRecord_tbegin,
      State.withRecord_tend]
    split <;> rfl
  case rpiNext =>
    by_cases hleft : s.remain = 0 <;>
      simp only [exec, execRpiNext, State.withRecord_remain, hleft, ↓reduceIte] <;> rfl

/-- Nor does an engine move, whatever word is pending. -/
theorem engineMove_withRecord {s t : State} (h : engineMove s = .next t) (ops : List HostOp)
    (ts : List Turn) (rs : List Word) :
    engineMove (s.withRecord ops ts rs) = .next (t.withRecord ops ts rs) := by
  have hp : (s.withRecord ops ts rs).pending = s.pending := rfl
  obtain ⟨i, hd, hx⟩ | ⟨e, hd, rfl⟩ := engineMove_cases h
  · rw [engineMove_of_decode (hp ▸ hd)]
    exact exec_withRecord hx ops ts rs
  · simp only [engineMove, hp, hd]
    rfl

/-! ## A step of the host, by its first access (R40, R49, R70) -/

/-- Without a command pending and without a reset the host makes its next access, on any turn (R206). -/
theorem mover_of_idle {s : State} (hb : s.busy = false) (hin : s.inputs ≠ [])
    (hno : .reset ∉ s.turns) : mover s = some .host := by
  cases hts : s.turns with
  | nil => simp [mover, hts, hb, hin]
  | cons turn ts => cases turn <;> simp_all [mover]

theorem step_read {s : State} {off : Offset} {size : Nat} {rest : List HostOp}
    (hm : mover s = some .host) (hin : s.inputs = .read (busAddress s.cfg off) size :: rest) :
    step s = .next (s.withRecord rest s.turns.tail (hostRead off size s :: s.reads)) := by
  rw [step_of_mover_host hm, ← hostRead_popTurn off size s]
  simp only [hostMove, State.popTurn_inputs, hin, hostAct, State.popTurn_cfg, windowOffset_busAddress]
  rfl

theorem step_write {s : State} {off : Offset} {size : Nat} {v : Word} {rest : List HostOp}
    (hm : mover s = some .host) (hin : s.inputs = .write (busAddress s.cfg off) size v :: rest) :
    step s = .next { hostWrite off size v s with turns := s.turns.tail, inputs := rest } := by
  have hpop : hostWrite off size v s.popTurn =
      { hostWrite off size v s with turns := s.turns.tail, inputs := s.inputs } :=
    hostWrite_withRecord off size v s s.turns.tail s.inputs
  rw [step_of_mover_host hm]
  simp only [hostMove, State.popTurn_inputs, hin, hostAct, State.popTurn_cfg, windowOffset_busAddress, hpop]
  rfl

/-- One read of a `WAIT`, which stays the next access exactly while a command is pending. -/
theorem step_wait {s : State} {rest : List HostOp} (hm : mover s = some .host)
    (hin : s.inputs = .wait :: rest) :
    step s = .next (s.withRecord (if s.busy then .wait :: rest else rest) s.turns.tail
      (hostRead 0x04 4 s :: s.reads)) := by
  rw [step_of_mover_host hm, ← hostRead_popTurn 0x04 4 s]
  simp only [hostMove, State.popTurn_inputs, hin, hostAct_wait]
  rfl

/-! ## EXEC runs its command once (R50, R51, R70, R206) -/

theorem not_mem_tail {x : Turn} {ts : List Turn} (h : x ∉ ts) : x ∉ ts.tail :=
  fun hx => h (List.mem_of_mem_tail hx)

/-- The `WAIT` of an idle block is over at its next step. -/
theorem step_wait_of_idle {s : State} {rest : List HostOp} (hb : s.busy = false)
    (hin : s.inputs = .wait :: rest) (hno : .reset ∉ s.turns) :
    step s = .next (s.withRecord rest s.turns.tail (hostRead 0x04 4 s :: s.reads)) := by
  have hm := mover_of_idle hb (by simp [hin]) hno
  simpa [hb] using step_wait hm hin

/-- The engine's step completes the command and the next read of the `WAIT` ends it. -/
theorem run_wait_of_engine {s u : State} {rest : List HostOp} (hm : mover s = some .engine)
    (hin : s.inputs = .wait :: rest) (hno : .reset ∉ s.turns) (hu : engineMove s = .next u) :
    ∃ ts rs, core.run 2 s = .next (u.withRecord rest ts rs) := by
  have hstep : step s = .next (u.withRecord s.inputs s.turns.tail s.reads) := by
    rw [step_of_mover_engine hm]
    exact engineMove_withRecord hu s.inputs s.turns.tail s.reads
  obtain ⟨-, -, -, -, hidle⟩ := engineMove_common hu
  have hwait := step_wait_of_idle (s := u.withRecord s.inputs s.turns.tail s.reads) hidle hin
    (not_mem_tail hno)
  exact ⟨_, _, by rw [run_succ hstep, run_succ hwait]; rfl⟩

/-- A `WAIT` over a pending command lets it complete once, on the state as it is: by induction on the
turns left, since a read of the `WAIT` that finds the block busy uses one up. -/
theorem run_wait_of_busy {s u : State} {rest : List HostOp} (hb : s.busy = true)
    (hin : s.inputs = .wait :: rest) (hno : .reset ∉ s.turns) (hu : engineMove s = .next u) :
    ∃ n, n ≤ s.turns.length + 2 ∧ ∃ ts rs, core.run n s = .next (u.withRecord rest ts rs) := by
  induction hts : s.turns generalizing s u with
  | nil => exact ⟨2, by simp, run_wait_of_engine (by simp [mover, hts, hb]) hin hno hu⟩
  | cons turn ts ih =>
    cases turn with
    | reset => simp [hts] at hno
    | engine => exact ⟨2, by simp, run_wait_of_engine (by simp [mover, hts, hb]) hin hno hu⟩
    | host =>
      have hm : mover s = some .host := by simp [mover, hts, hin]
      have hstep := step_wait hm hin
      simp only [hb, if_true, hts, List.tail_cons] at hstep
      have hno' : .reset ∉ ts := by simpa [hts] using hno
      obtain ⟨n, hn, ts', rs', hrun⟩ := ih (s := s.withRecord (.wait :: rest) ts _) hb rfl hno'
        (engineMove_withRecord hu _ _ (hostRead 0x04 4 s :: s.reads)) rfl
      exact ⟨n + 1, by simpa using hn, ts', rs', (run_succ hstep n).trans hrun⟩

/-- A CMD write to an idle block is the next step, and it is acceptance (R36). -/
theorem step_accept_of_idle {s : State} {w : Word} {rest : List HostOp} (hb : s.busy = false)
    (hin : s.inputs = .write (busAddress s.cfg 0x00) 4 w :: rest) (hno : .reset ∉ s.turns) :
    step s = .next ((s.accept w).withRecord rest s.turns.tail s.reads) := by
  rw [step_write (mover_of_idle hb (by simp [hin]) hno) hin, cmdWriteAccepts s w hb]
  rfl

/-- Settles O44: the first `WAIT` is over at once, the write is acceptance, and the second `WAIT` lets the
word complete once. -/
theorem execRunsCommandOnce : Obligations.ExecRunsCommandOnce := by
  intro s w rest hb hin hno
  obtain ⟨u, hu⟩ := engineMove_next (s.accept w)
  have hno₁ := not_mem_tail hno
  have hno₂ := not_mem_tail hno₁
  have hwait := step_wait_of_idle hb hin hno
  have haccept := step_accept_of_idle (w := w)
    (s := s.withRecord (hostWr s.cfg 0x00 w ++ .wait :: rest) s.turns.tail (hostRead 0x04 4 s :: s.reads))
    hb rfl hno₁
  obtain ⟨n, hn, ts, rs, hrun⟩ := run_wait_of_busy rfl rfl hno₂ (engineMove_withRecord hu _ _ _)
  refine ⟨n + 2, ?_, u.withRecord rest ts rs, u, ?_, hu, rfl⟩
  · have hleft : n ≤ s.turns.tail.tail.length + 2 := hn
    simp only [List.length_tail] at hleft
    omega
  · exact (run_succ hwait (n + 1)).trans ((run_succ haccept n).trans hrun)

/-! ## Accesses in issue order, and outside the window (R40, R49) -/

/-- A host move makes its next access, or leaves it if it is a `WAIT` that goes on or if there is none. -/
theorem hostMove_inputs (s : State) :
    (hostMove s).inputs = s.inputs ∨ ∃ op, s.inputs = op :: (hostMove s).inputs := by
  unfold hostMove
  split
  · exact .inl rfl
  · rename_i op rest hin
    cases op with
    | read addr size | write addr size v =>
      refine .inr ⟨_, hin.trans (congrArg _ ?_)⟩
      simp only [hostAct]
      split <;> rfl
    | wait =>
      rw [hostAct_wait, State.setInputs_inputs, hin]
      cases s.busy
      · exact .inr ⟨_, rfl⟩
      · exact .inl rfl

/-- Settles O10: of the movers only the host makes an access, and it makes the first one. -/
theorem hostAccessesInOrder : Obligations.HostAccessesInOrder := by
  intro s t h
  obtain ⟨-, rfl⟩ | ⟨hm, -⟩ | ⟨hm, rfl⟩ | ⟨-, rfl⟩ := step_cases h
  · exact ⟨.inl rfl, rfl⟩
  · obtain ⟨-, -, hrest⟩ := engineStep_common hm h
    exact ⟨.inl hrest.inputs, hrest.cfg⟩
  · obtain ⟨-, -, -, -, -, hcfg, -⟩ := hostMove_keeps s.popTurn
    exact ⟨(hostMove_inputs s.popTurn).imp id fun hop => ⟨hm, hop⟩, hcfg⟩
  · exact ⟨.inl rfl, rfl⟩

theorem windowOffset_eq_none {cfg : Config} {addr : Nat}
    (h : addr < cfg.base ∨ cfg.base + 256 ≤ addr) : windowOffset cfg addr = none :=
  if_neg (by omega)

/-- Settles O21: an address outside the window has no offset in it, so the access is only used up. -/
theorem outsideWindowIgnored : Obligations.OutsideWindowIgnored := by
  intro s addr size v rest hm hout hin
  have hnone := windowOffset_eq_none hout
  rw [step_of_mover_host hm]
  obtain hin | hin := hin <;>
    simp only [hostMove, State.popTurn_inputs, hin, hostAct, State.popTurn_cfg, hnone] <;> rfl

/-! ## Where each word lies (R18) -/

/-- The first offset of a word of the window; `windowReg` gives the word back. -/
def WindowReg.offset : WindowReg → Offset
  | .cmd => 0x00
  | .status => 0x04
  | .errcode => 0x08
  | .lastcmd => 0x0C
  | .key i => BitVec.ofNat 8 (0x10 + 4 * i.val)
  | .din i => BitVec.ofNat 8 (0x20 + 4 * i.val)
  | .dout i => BitVec.ofNat 8 (0x30 + 4 * i.val)
  | .tbegin .lo => 0x40
  | .tbegin .hi => 0x44
  | .tend .lo => 0x48
  | .tend .hi => 0x4C
  | .jval .lo => 0x50
  | .jval .hi => 0x54
  | .jcur .lo => 0x58
  | .jcur .hi => 0x5C
  | .jlast .lo => 0x60
  | .jlast .hi => 0x64
  | .remain => 0x68
  | .reserved => 0x6C
  | .subkey i => BitVec.ofNat 8 (0x70 + 4 * i.val)
  | .msg i => BitVec.ofNat 8 (0x80 + 4 * i.val)
  | .dk i => BitVec.ofNat 8 (0xC0 + 4 * i.val)

/-- The offset of a word is aligned, and the map of R18 has the word there. -/
theorem windowReg_offset (r : WindowReg) : r.offset.toNat % 4 = 0 ∧ windowReg r.offset = r := by
  cases r with
  | key i | din i | dout i | subkey i | msg i | dk i => revert i; decide
  | tbegin h | tend h | jval h | jcur h | jlast h => cases h <;> exact ⟨rfl, rfl⟩
  | cmd | status | errcode | lastcmd | remain | reserved => exact ⟨rfl, rfl⟩

/-- Every word but the reserved ones has one aligned offset. -/
theorem offset_windowReg {off : Offset} (ha : off.toNat % 4 = 0) (hr : windowReg off ≠ .reserved) :
    (windowReg off).offset = off := by
  revert off
  decide

/-- The words from 0xE0 on are reserved. -/
theorem windowReg_above_dk : ∀ i : Fin 8,
    (BitVec.ofNat 8 (0xE0 + 4 * i.val)).toNat % 4 = 0 ∧
      windowReg (BitVec.ofNat 8 (0xE0 + 4 * i.val)) = .reserved := by
  decide

/-- The RW words lie at 0x10 to 0x2C, 0x40 to 0x54 and 0x80 to 0xBC. -/
theorem isRW_windowReg_iff {off : Offset} (ha : off.toNat % 4 = 0) :
    (windowReg off).isRW = true ↔
      0x10 ≤ off.toNat ∧ off.toNat < 0x30 ∨ 0x40 ≤ off.toNat ∧ off.toNat < 0x58 ∨
        0x80 ≤ off.toNat ∧ off.toNat < 0xC0 := by
  revert off
  decide

/-! ## Reads (R41, R43, R44) -/

theorem hostRead_of_windowReg {off : Offset} {r : WindowReg}
    (h : off.toNat % 4 = 0 ∧ windowReg off = r) (s : State) : hostRead off 4 s = readReg r s := by
  obtain ⟨ha, rfl⟩ := h
  simp [hostRead, honoured, ha]

/-- A read at the offset of a word returns the word (R44). -/
theorem hostRead_offset (r : WindowReg) (s : State) : hostRead r.offset 4 s = readReg r s :=
  hostRead_of_windowReg (windowReg_offset r) s

/-- A word of four bits is the sum of their weights. -/
theorem toNat_of_four_bits : ∀ e d g b : Bool,
    ((BitVec.ofBool e ++ BitVec.ofBool d ++ BitVec.ofBool g ++ BitVec.ofBool b).zeroExtend 32).toNat =
      (if b then 1 else 0) + (if g then 2 else 0) + (if d then 4 else 0) + (if e then 8 else 0) := by
  decide

theorem errFlag_iff (s : State) : errFlag s = true ↔ s.errcode ≠ .ok := by
  unfold errFlag errcodeWord
  cases s.errcode <;> decide

theorem genActive_iff (s : State) : genActive s = true ↔ s.remain ≠ 0 := by
  simp [genActive]

/-- STATUS is the sum of its four bits (R20). -/
theorem statusWord_toNat (s : State) :
    (statusWord s).toNat =
      (if s.busy then 1 else 0) + (if s.remain ≠ 0 then 2 else 0) + (if s.drop then 4 else 0) +
        (if s.errcode ≠ .ok then 8 else 0) := by
  rw [statusWord, toNat_of_four_bits]
  simp only [errFlag_iff, genActive_iff]

/-- Settles O13: each offset is that of its word, and a read step is the read. -/
theorem readReturns : Obligations.ReadReturns := by
  intro s
  have hword := fun r => hostRead_offset r s
  exact ⟨hword .cmd, (congrArg BitVec.toNat (hword .status)).trans (statusWord_toNat s),
    hword .errcode, hword .lastcmd,
    fun i => ⟨hword (.key i), hword (.din i), hword (.dout i), hword (.subkey i)⟩,
    hword (.tbegin .lo), hword (.tbegin .hi), hword (.tend .lo), hword (.tend .hi),
    hword (.jval .lo), hword (.jval .hi), hword (.jcur .lo), hword (.jcur .hi),
    hword (.jlast .lo), hword (.jlast .hi), hword .remain, hword .reserved,
    fun i => hword (.msg i),
    fun i => ⟨hword (.dk i), hostRead_of_windowReg (windowReg_above_dk i) s⟩,
    fun off size rest hm hin => step_read hm hin⟩

/-- Byte `k` of a buffer whose words are read at `reg 0`, `reg 1` and so on (R41). -/
theorem bytesOf_eq_hostRead {n : Nat} {s : State} {r : Vector Word n} {reg : Fin n → WindowReg}
    (hreg : ∀ i, readReg (reg i) s = r[i]) (k : Fin (4 * n)) :
    (bytesOf r)[k] =
      (hostRead (reg ⟨k.val / 4, by omega⟩).offset 4 s).extractLsb' (8 * (k.val % 4)) 8 := by
  rw [hostRead_offset, hreg]
  exact bytesOf_getElem r k.val k.isLt

/-- A 64-bit register is what is read at its HI and LO words (R41). -/
theorem dword_eq_hostRead {s : State} {x : DWord} {reg : Half → WindowReg}
    (hreg : ∀ h, readReg (reg h) s = halfOf h x) :
    x = hostRead (reg .hi).offset 4 s ++ hostRead (reg .lo).offset 4 s := by
  rw [hostRead_offset, hostRead_offset, hreg, hreg]
  exact (dword_hiWord_loWord x).symm

/-- Settles O14, buffer by buffer and register by register. -/
theorem byteOrderOfBuffers : Obligations.ByteOrderOfBuffers := by
  intro s
  exact ⟨fun k => ⟨bytesOf_eq_hostRead (reg := .key) (fun _ => rfl) k,
      bytesOf_eq_hostRead (reg := .din) (fun _ => rfl) k,
      bytesOf_eq_hostRead (reg := .dout) (fun _ => rfl) k,
      bytesOf_eq_hostRead (reg := .subkey) (fun _ => rfl) k⟩,
    fun k => bytesOf_eq_hostRead (reg := .msg) (fun _ => rfl) k,
    fun k => bytesOf_eq_hostRead (reg := .dk) (fun _ => rfl) k,
    dword_eq_hostRead (reg := .tbegin) fun _ => rfl, dword_eq_hostRead (reg := .tend) fun _ => rfl,
    dword_eq_hostRead (reg := .jval) fun _ => rfl, dword_eq_hostRead (reg := .jcur) fun _ => rfl,
    dword_eq_hostRead (reg := .jlast) fun _ => rfl⟩

/-! ## Writes: the three ways one is answered (R43, R45 to R47) -/

theorem hostWrite_of_malformed {off : Offset} {size : Nat} (h : honoured off size = false) (v : Word)
    (s : State) : hostWrite off size v s = s.setDrop true := by
  simp [hostWrite, h]

/-- While busy a write to any word but STATUS sets DROP, honoured or not (R45). -/
theorem hostWrite_of_locked {off : Offset} {s : State} (hb : s.busy = true)
    (hr : windowReg off ≠ .status) (size : Nat) (v : Word) :
    hostWrite off size v s = s.setDrop true := by
  simp [hostWrite, hb, hr]

/-- So no write while busy changes anything but DROP, which a write to STATUS may clear (R20, R45). -/
theorem hostWrite_eq_setDrop_of_busy {s : State} (hb : s.busy = true) (off : Offset) (size : Nat)
    (v : Word) : ∃ b, hostWrite off size v s = s.setDrop b := by
  obtain h | ⟨-, h⟩ | ⟨hidle, -⟩ | ⟨hidle, -⟩ := hostWrite_cases off size v s
  · exact ⟨true, h⟩
  · rw [h, writeStatus]
    split
    · exact ⟨false, rfl⟩
    · exact ⟨s.drop, rfl⟩
  · simp [hb] at hidle
  · simp [hb] at hidle

/-- A write that is neither malformed nor locked acts on its word. -/
theorem hostWrite_of_open {off : Offset} {size : Nat} {s : State} (hh : honoured off size = true)
    (h : s.busy = false ∨ windowReg off = .status) (v : Word) :
    hostWrite off size v s = writeReg (windowReg off) v s := by
  obtain h | h := h <;> simp [hostWrite, hh, h]

theorem lowBits_ne_zero_iff (off : Offset) : off.extractLsb' 0 2 ≠ 0 ↔ off.toNat % 4 ≠ 0 := by
  rw [ne_eq, ← BitVec.toNat_inj]
  simp

/-- Settles O15: a malformed access is not honoured. -/
theorem malformedAccess : Obligations.MalformedAccess := by
  intro s off size v h
  have hh : honoured off size = false := by
    rw [lowBits_ne_zero_iff] at h
    rw [Bool.eq_false_iff, ne_eq, honoured_iff]
    omega
  exact ⟨by simp [hostRead, hh], hostWrite_of_malformed hh v s⟩

/-- Settles O16: the lock, STATUS's exception from it, and what neither of the two writes. -/
theorem writeLockWhileBusy : Obligations.WriteLockWhileBusy := by
  refine ⟨fun s off v hb ha hne => ?_, fun s v => ?_, fun s off size v hb => ?_⟩
  · exact hostWrite_of_locked hb (fun hst => hne (windowReg_eq_status ha hst)) 4 v
  · exact hostWrite_of_open (off := 0x04) rfl (.inr rfl) v
  · obtain ⟨b, h⟩ := hostWrite_eq_setDrop_of_busy hb off size v
    rw [h]
    exact ⟨⟨rfl, rfl, rfl, rfl⟩, ⟨rfl, rfl, rfl, rfl⟩, rfl, hb⟩

/-- A write to a word that is neither RW nor CMD nor STATUS is dropped (R46). -/
theorem writeReg_of_readOnly {r : WindowReg} (hrw : r.isRW = false) (hc : r ≠ .cmd) (hs : r ≠ .status)
    (v : Word) (s : State) : writeReg r v s = s.setDrop true := by
  cases r with
  | cmd => exact absurd rfl hc
  | status => exact absurd rfl hs
  | key i | din i | tbegin h | tend h | jval h | msg i => simp [WindowReg.isRW] at hrw
  | _ => rfl

/-- Settles O17: none of these offsets is RW, CMD or STATUS. -/
theorem readOnlyWriteDropped : Obligations.ReadOnlyWriteDropped := by
  intro s off v hb ha ho
  have hrw : (windowReg off).isRW = false := by
    rw [Bool.eq_false_iff, ne_eq, isRW_windowReg_iff ha]
    omega
  rw [hostWrite_of_idle v hb ha]
  exact writeReg_of_readOnly hrw (windowReg_ne ha rfl (by omega)) (windowReg_ne ha rfl (by omega)) v s

/-- A write to an RW word of an idle block leaves the generator, the rest and the command state alone. -/
theorem writeReg_keeps {r : WindowReg} (hrw : r.isRW = true) (v : Word) (s : State) :
    KeepsGenerator s (writeReg r v s) ∧ KeepsRest s (writeReg r v s) ∧
      (writeReg r v s).busy = s.busy := by
  cases r with
  | key i | din i | tbegin h | tend h | jval h | msg i =>
    exact ⟨⟨rfl, rfl, rfl, rfl⟩, ⟨rfl, rfl, rfl, rfl, rfl, rfl⟩, rfl⟩
  | _ => simp [WindowReg.isRW] at hrw

/-- Two aligned offsets of one word are the same, if it is not a reserved one. -/
theorem windowReg_inj {off off' : Offset} (ha : off.toNat % 4 = 0) (ha' : off'.toNat % 4 = 0)
    (hr : windowReg off ≠ .reserved) (h : windowReg off' = windowReg off) : off' = off := by
  rw [← offset_windowReg ha hr, ← h, offset_windowReg ha' (h ▸ hr)]

/-- Settles O18: an RW word is stored and no other word reads it; and the host's step is the write. -/
theorem operandWriteStores : Obligations.OperandWriteStores := by
  refine ⟨fun s off v hb ha ho => ?_, fun s off size v rest hm hin => step_write hm hin⟩
  have hrw := (isRW_windowReg_iff ha).mpr ho
  have hres : windowReg off ≠ .reserved := fun hr => by simp [hr, WindowReg.isRW] at hrw
  obtain ⟨hgen, hrest, hbusy⟩ := writeReg_keeps hrw v s
  rw [hostWrite_of_idle v hb ha]
  refine ⟨?_, fun off' size' hne => ?_, hgen, hrest, hbusy.trans hb⟩
  · rw [hostRead_of_windowReg ⟨ha, rfl⟩]
    exact readReg_writeReg_same hrw v s
  · by_cases hh : honoured off' size' = true
    · obtain ⟨-, ha'⟩ := honoured_iff.mp hh
      simp only [hostRead, hh, if_true]
      exact readReg_writeReg_other hrw (fun h => hne (windowReg_inj ha ha' hres h)) v s
    · simp [hostRead, hh]

/-! ## Repeated writes (R48) -/

theorem withHalf_withHalf (h : Half) (x : DWord) (v : Word) :
    withHalf h (withHalf h x v) v = withHalf h x v := by
  cases h <;> simp [withHalf]

/-- Only acceptance sets `busy`. -/
theorem writeReg_busy {r : WindowReg} (hc : r ≠ .cmd) (v : Word) (s : State) :
    (writeReg r v s).busy = s.busy := by
  cases r with
  | cmd => exact absurd rfl hc
  | status => simp only [writeReg, writeStatus]; split <;> rfl
  | _ => rfl

/-- CMD is one word of the window (R18). -/
theorem windowReg_eq_cmd {off : Offset} (ha : off.toNat % 4 = 0) (h : windowReg off = .cmd) :
    off = 0x00 :=
  windowReg_inj (off := 0x00) rfl ha (by decide) h

/-- To store a word twice, to set DROP twice and to clear it twice is to do so once. -/
theorem writeReg_writeReg {r : WindowReg} (hc : r ≠ .cmd) (v : Word) (s : State) :
    writeReg r v (writeReg r v s) = writeReg r v s := by
  cases r with
  | cmd => exact absurd rfl hc
  | status => cases h : clearsDrop v <;> simp [writeReg, writeStatus, h, State.setDrop]
  | key i | din i | msg i => simp [writeReg, State.setKey, State.setDin, State.setMsg]
  | tbegin h | tend h | jval h =>
    simp [writeReg, State.setTbegin, State.setTend, State.setJval, withHalf_withHalf]
  | _ => rfl

/-- Settles O19: a write answered by DROP is answered so again, and one that acts on a word other than
CMD acts on it again; a second CMD write finds the block busy. -/
theorem writeIdempotence : Obligations.WriteIdempotence := by
  refine ⟨fun s off size v h => ?_, fun s v hb => ?_⟩
  · by_cases hh : honoured off size = true
    · by_cases hopen : s.busy = false ∨ windowReg off = .status
      · obtain ⟨rfl, ha⟩ := honoured_iff.mp hh
        have hc : windowReg off ≠ .cmd := fun hr => by
          have hb : s.busy = false := hopen.resolve_right (by simp [hr])
          simp [hb, windowReg_eq_cmd ha hr] at h
        rw [hostWrite_of_open hh hopen, hostWrite_of_open hh (by rwa [writeReg_busy hc]),
          writeReg_writeReg hc]
      · obtain ⟨hb, hr⟩ := not_or.mp hopen
        have hb : s.busy = true := by simpa using hb
        rw [hostWrite_of_locked hb hr, hostWrite_of_locked (by simpa using hb) hr]
        rfl
    · have hh : honoured off size = false := by simpa using hh
      rw [hostWrite_of_malformed hh, hostWrite_of_malformed hh]
      rfl
  · rw [cmdWriteAccepts s v hb]
    exact hostWrite_of_locked (off := 0x00) rfl (by decide) 4 v

end Sys2Proof.Machine
end

section
/-! PROOFS, family 30: command words, their decoding, and the step that runs them
(spec/30_encoding.md). -/

namespace Sys2Proof

/-! ## The row a word matches (R61, R65) -/

/-- Masked bits fix a bit field that the mask covers. -/
theorem extractLsb'_of_masked {w m p : Word} {k n : Nat} (hm : m.extractLsb' k n = BitVec.allOnes n)
    (h : w &&& m = p) : w.extractLsb' k n = p.extractLsb' k n := by
  rw [← h, BitVec.extractLsb'_and, hm, BitVec.and_allOnes]

/-- OP names the row a word matches. -/
theorem ofField_of_row {w : Word} {c : Op} (h : w &&& c.mask = c.pattern) :
    Op.ofField (opField w) = some c := by
  rw [opField_of_masked (by cases c <;> decide) h]
  cases c <;> rfl

theorem row_unique {w : Word} {c c' : Op} (h : w &&& c.mask = c.pattern)
    (h' : w &&& c'.mask = c'.pattern) : c = c' :=
  Option.some.inj ((ofField_of_row h).symm.trans (ofField_of_row h'))

/-- A word decodes to a command exactly when it matches that command's own row and carries its operands. -/
theorem decode_ok_iff_op (w : Word) (i : Instr) :
    decode w = .ok i ↔ w &&& i.op.mask = i.op.pattern ∧ i.op.build w = i := by
  rw [decode_ok_iff]
  constructor
  · rintro ⟨c, hrow, rfl⟩
    rw [op_build]
    exact ⟨hrow, rfl⟩
  · exact fun ⟨hrow, hbuild⟩ => ⟨i.op, hrow, hbuild⟩

theorem tselField_eq_iff (w : Word) :
    (tselField w = .timeBegin ↔ w.getLsbD 24 = false) ∧ (tselField w = .timeEnd ↔ w.getLsbD 24 = true) := by
  unfold tselField
  cases w.getLsbD 24 <;> simp

/-- Settles O3: each clause is `decode_ok_iff_op` at one command, with its operands read as fields. -/
theorem decodeMatchesOpcodeMap : Obligations.DecodeMatchesOpcodeMap := by
  intro w
  obtain ⟨-, hlen, hmlen⟩ := fields_toNat w
  obtain ⟨hbegin, hend⟩ := tselField_eq_iff w
  have hplain (i : Instr) (h : i.op.build w = i) : decode w = .ok i ↔ w &&& i.op.mask = i.op.pattern :=
    (decode_ok_iff_op w i).trans (and_iff_left h)
  refine ⟨hplain .nop rfl, hplain .encrypt rfl, fun l m => ?_, fun m => ?_, ?_, ?_,
    hplain .pad rfl, hplain .rpiStart rfl, hplain .rpiNext rfl, fun c c' => row_unique⟩
  all_goals refine (decode_ok_iff_op w _).trans (and_congr_right fun _ => ?_)
  · simp [Instr.op, Op.build, hlen, hmlen, eq_comm]
  · simp [Instr.op, Op.build, hmlen, eq_comm]
  · simp [Instr.op, Op.build, hbegin]
  · simp [Instr.op, Op.build, hend]

/-- Settles O4: every row's mask covers RSV and OP, so a word that matches a row has the RSV and the OP of
the row's pattern. -/
theorem reservedEncodingsIllegal : Obligations.ReservedEncodingsIllegal := by
  intro w hres i hdec
  obtain ⟨c, hrow, -⟩ := (decode_ok_iff w i).mp hdec
  rcases hres with hrsv | hop
  · refine hrsv ((extractLsb'_of_masked ?_ hrow).trans ?_) <;> cases c <;> rfl
  · have hlt : (c.pattern.extractLsb' 0 8).toNat < 0x08 := by cases c <;> decide
    rw [extractLsb'_of_masked (by cases c <;> rfl) hrow] at hop
    omega

/-! ## A word is the encoding of what it decodes to (R65 to R68) -/

/-- A byte read from a word and put back in its place is the word's own bits there. -/
theorem byteField_shiftLeft (w : Word) (k : Nat) :
    BitVec.ofNat 32 (w.extractLsb' k 8).toNat <<< k = w &&& (0xFF : Word) <<< k := by
  apply BitVec.eq_of_getLsbD_eq
  intro j hj
  by_cases hk : j < k
  · simp [hk]
  · obtain ⟨i, rfl⟩ := Nat.exists_eq_add_of_le (Nat.le_of_not_lt hk)
    have hi : i < 32 := by omega
    have hmask : (0xFF : Word).getLsbD i = decide (i < 8) := by
      rw [show (0xFF : Word) = BitVec.ofNat 32 (2 ^ 8 - 1) from rfl, BitVec.getLsbD_ofNat,
        Nat.testBit_two_pow_sub_one]
      simp [hi]
    simp only [BitVec.ofNat_toNat, BitVec.getLsbD_shiftLeft, BitVec.getLsbD_and, BitVec.getLsbD_setWidth,
      BitVec.getLsbD_extractLsb', Nat.add_sub_cancel_left, hmask]
    simp [hj, hi, Bool.and_comm]

/-- The operands of a row's command are the word's bits outside the row's mask. -/
theorem fieldBits_build (c : Op) (w : Word) : (c.build w).fieldBits = w &&& ~~~c.mask := by
  cases c with
  | hkdf =>
    calc BitVec.ofNat 32 (lenField w) <<< 8 ||| BitVec.ofNat 32 (mlenField w) <<< 16
        = w &&& (0xFF : Word) <<< 8 ||| w &&& (0xFF : Word) <<< 16 := by
          simp only [lenField, mlenField, byteField_shiftLeft]
      _ = w &&& ~~~Op.mask .hkdf := BitVec.and_or_distrib_left.symm
  | hmac => exact byteField_shiftLeft w 16
  | interval =>
    calc tselBits (tselField w) = (if w.getLsbD 24 then BitVec.twoPow 32 24 else 0) := by
          unfold tselField; split <;> rfl
      _ = w &&& BitVec.twoPow 32 24 := (BitVec.and_twoPow ..).symm
      _ = w &&& ~~~Op.mask .interval := rfl
  | nop | encrypt | pad | rpiStart | rpiNext => exact BitVec.and_zero.symm

theorem encode_build {w : Word} {c : Op} (h : w &&& c.mask = c.pattern) : encode (c.build w) = w := by
  rw [encode, op_build, fieldBits_build, ← h, ← BitVec.and_or_distrib_left, BitVec.or_not_self,
    BitVec.and_allOnes]

theorem fitsField_fields (w : Word) : fitsField (lenField w) = true ∧ fitsField (mlenField w) = true := by
  simp [fitsField, fields_toNat, Nat.mod_lt]

theorem wellFormed_build (c : Op) (w : Word) : (c.build w).wellFormed = true := by
  obtain ⟨hlen, hmlen⟩ := fitsField_fields w
  cases c <;> simp [Op.build, Instr.wellFormed, hlen, hmlen]

/-- Settles O2: a decoded word matches a row, whose command is built of its own bits. -/
theorem encodeOfDecode : Obligations.EncodeOfDecode := by
  intro w i hdec
  obtain ⟨c, hrow, rfl⟩ := (decode_ok_iff w i).mp hdec
  exact ⟨wellFormed_build c w, encode_build hrow⟩

/-! ## A command is what its word decodes to (R60 to R65) -/

/-- The word of a well-formed command matches its row. -/
theorem encode_matches_row {i : Instr} (h : i.wellFormed = true) : encode i &&& i.op.mask = i.op.pattern := by
  cases i with
  | nop => exact Laws.MatchesRow.nop h
  | encrypt => exact Laws.MatchesRow.encrypt h
  | hkdf len mlen => exact Laws.MatchesRow.hkdf len mlen h
  | hmac mlen => exact Laws.MatchesRow.hmac mlen h
  | interval tsel => exact Laws.MatchesRow.interval tsel h
  | pad => exact Laws.MatchesRow.pad h
  | rpiStart => exact Laws.MatchesRow.rpiStart h
  | rpiNext => exact Laws.MatchesRow.rpiNext h

/-- A byte count that fits its field, put above the bits in use, adds its number there. -/
theorem toNat_or_shiftLeft {x : Word} {n k : Nat} (hx : x.toNat < 2 ^ k) (hn : fitsField n = true)
    (hk : k + 8 ≤ 32) : (x ||| BitVec.ofNat 32 n <<< k).toNat = 2 ^ k * n + x.toNat := by
  have hn : n < 2 ^ 8 := by simpa [fitsField] using hn
  have hroom : n <<< k < 2 ^ 32 :=
    calc n <<< k < 2 ^ 8 * 2 ^ k := by
          rw [Nat.shiftLeft_eq]; exact Nat.mul_lt_mul_of_pos_right hn (Nat.two_pow_pos k)
      _ = 2 ^ (k + 8) := by rw [← Nat.pow_add, Nat.add_comm]
      _ ≤ 2 ^ 32 := Nat.pow_le_pow_right (by decide) hk
  have hmod : n % 2 ^ 32 = n := Nat.mod_eq_of_lt (by omega)
  rw [BitVec.toNat_or, BitVec.toNat_shiftLeft, BitVec.toNat_ofNat, hmod, Nat.mod_eq_of_lt hroom,
    Nat.shiftLeft_eq, Nat.mul_comm, Nat.or_comm, Nat.two_pow_add_eq_or_of_lt hx]

theorem encode_hkdf_toNat {l m : Nat} (hl : fitsField l = true) (hm : fitsField m = true) :
    (encode (.hkdf l m)).toNat = 2 ^ 16 * m + (2 ^ 8 * l + 2) := by
  have hlow := toNat_or_shiftLeft (x := Op.pattern .hkdf) (k := 8) (by decide) hl (by decide)
  have hbound : l < 256 := by simpa [fitsField] using hl
  have hx : (Op.pattern .hkdf ||| BitVec.ofNat 32 l <<< 8).toNat < 2 ^ 16 := by
    rw [hlow]; simp only [Op.pattern, BitVec.reduceToNat]; omega
  calc (encode (.hkdf l m)).toNat
      = (Op.pattern .hkdf ||| BitVec.ofNat 32 l <<< 8 ||| BitVec.ofNat 32 m <<< 16).toNat :=
        congrArg BitVec.toNat (BitVec.or_assoc ..).symm
    _ = 2 ^ 16 * m + (2 ^ 8 * l + 2) := by rw [toNat_or_shiftLeft hx hm (by decide), hlow]; rfl

theorem encode_hmac_toNat {m : Nat} (hm : fitsField m = true) :
    (encode (.hmac m)).toNat = 2 ^ 16 * m + 3 :=
  toNat_or_shiftLeft (x := Op.pattern .hmac) (by decide) hm (by decide)

/-- The operands read from a well-formed command's word are the command's own. -/
theorem build_encode {i : Instr} (h : i.wellFormed = true) : i.op.build (encode i) = i := by
  obtain ⟨-, hlen, hmlen⟩ := fields_toNat (encode i)
  cases i with
  | hkdf l m =>
    obtain ⟨hl, hm⟩ : fitsField l = true ∧ fitsField m = true := by simpa [Instr.wellFormed] using h
    have hb : l < 256 ∧ m < 256 := by simpa [fitsField] using And.intro hl hm
    rw [encode_hkdf_toNat hl hm] at hlen hmlen
    show Instr.hkdf (lenField _) (mlenField _) = _
    rw [hlen, hmlen]
    congr <;> omega
  | hmac m =>
    have hb : m < 256 := by simpa [Instr.wellFormed, fitsField] using h
    rw [encode_hmac_toNat h] at hmlen
    show Instr.hmac (mlenField _) = _
    rw [hmlen]
    congr; omega
  | interval tsel => cases tsel <;> rfl
  | nop | encrypt | pad | rpiStart | rpiNext => rfl

/-- Settles O1: the word matches the command's row and carries its operands. -/
theorem decodeOfEncode : Obligations.DecodeOfEncode := fun i h =>
  (decode_ok_iff_op (encode i) i).mpr ⟨encode_matches_row h, build_encode h⟩

/-- Settles O5: each word is the encoding of the command it stands for, and `decodeOfEncode` reads it back. -/
theorem specWordsDecode : Obligations.SpecWordsDecode :=
  ⟨decodeOfEncode .encrypt rfl, decodeOfEncode (.hkdf 16 7) rfl, decodeOfEncode (.hmac 13) rfl,
    decodeOfEncode (.hkdf 32 0) rfl, decodeOfEncode (.interval .timeEnd) rfl, decodeOfEncode .rpiStart rfl⟩

end Sys2Proof

namespace Sys2Proof.Machine

/-! ## The engine's step on a word (R66, R67) -/

/-- Settles O6: the engine's move is on the state whose turn is used up, with the same word pending. -/
theorem stepRunsDecoded : Obligations.StepRunsDecoded := by
  intro s i hm hdec
  rw [step_of_mover_engine hm]
  exact engineMove_of_decode hdec

/-- A pending word that matches no row ends with ERR_ILLEGAL and does nothing else (R67). -/
theorem engineMove_of_no_row {s : State} (h : ∀ c : Op, s.pending &&& c.mask ≠ c.pattern) :
    engineMove s = .next (s.complete .illegal) := by
  have hnone : ∀ i, decode s.pending ≠ .ok i := fun i hdec =>
    let ⟨c, hrow, _⟩ := (decode_ok_iff s.pending i).mp hdec
    h c hrow
  obtain ⟨e, he⟩ := decode_error hnone
  simp [engineMove, he, State.fail]

/-- Settles O8: the step is `engineMove_of_no_row` on the state whose turn is used up; it is an engine step
like any other, and a completion alone writes no result and no generator register. -/
theorem illegalWordCompletes : Obligations.IllegalWordCompletes := by
  intro s hm hrow
  have hstep : step s = .next (s.popTurn.complete .illegal) := by
    rw [step_of_mover_engine hm]
    exact engineMove_of_no_row hrow
  obtain ⟨hcompleted, hops, hrest⟩ := engineStep_common hm hstep
  exact ⟨_, hstep, hcompleted, hops, ⟨rfl, rfl, rfl, rfl⟩, ⟨rfl, rfl, rfl, rfl⟩, hrest⟩

end Sys2Proof.Machine
end

section
/-! PROOFS, family 40: AES-128 and the ENCRYPT command (spec/40_cipher.md). -/

namespace Sys2Proof.Machine

/-! ## The four steps of a round, lane by lane (R85 to R88) -/

@[simp] theorem lane_subBytes (s : Block) (r c : Fin 4) : lane (subBytes s) r c = sbox (lane s r c) := by
  simp [lane, subBytes]

@[simp] theorem lane_shiftRows (s : Block) (r c : Fin 4) : lane (shiftRows s) r c = lane s r (c + r) :=
  lane_ofLanes _ r c

@[simp] theorem lane_mixColumns (s : Block) (r c : Fin 4) :
    lane (mixColumns s) r c =
      gmul (lane s r c) 2 ^^^ gmul (lane s (r + 1) c) 3 ^^^ lane s (r + 2) c ^^^ lane s (r + 3) c :=
  lane_ofLanes _ r c

@[simp] theorem lane_addRoundKey (s rk : Block) (r c : Fin 4) :
    lane (addRoundKey s rk) r c = lane s r c ^^^ lane rk r c := by
  simp [lane, addRoundKey]

/-- Settles O50: the model counts the rows of R87 from the row it makes, so the four terms of each line of
the rule come in another order. -/
theorem aesRoundSteps : Obligations.AesRoundSteps := by
  intro s rk r c
  refine ⟨lane_subBytes s r c, lane_shiftRows s r c, lane_mixColumns s 0 c, ?_, ?_, ?_,
    lane_addRoundKey s rk r c⟩
  · calc lane (mixColumns s) 1 c
        = gmul (lane s 1 c) 2 ^^^ gmul (lane s 2 c) 3 ^^^ lane s 3 c ^^^ lane s 0 c := lane_mixColumns s 1 c
      _ = _ := by ac_rfl
  · calc lane (mixColumns s) 2 c
        = gmul (lane s 2 c) 2 ^^^ gmul (lane s 3 c) 3 ^^^ lane s 0 c ^^^ lane s 1 c := lane_mixColumns s 2 c
      _ = _ := by ac_rfl
  · calc lane (mixColumns s) 3 c
        = gmul (lane s 3 c) 2 ^^^ gmul (lane s 0 c) 3 ^^^ lane s 1 c ^^^ lane s 2 c := lane_mixColumns s 3 c
      _ = _ := by ac_rfl

/-! ## The round keys as a fold over the round constants (R89) -/

/-- One more element taken is one more step of the fold. -/
theorem foldl_take_succ {α β : Type} {f : β → α → β} {xs : List α} {n : Nat} {x : α}
    (h : xs[n]? = some x) (b : β) : (xs.take (n + 1)).foldl f b = f ((xs.take n).foldl f b) x := by
  simp [List.take_add_one, h]

/-- The key `rk` with the round keys that follow it: each is the one before it, expanded by one round
constant. -/
theorem roundKeysFrom_getElem? (rcs : List Byte) (rk : Block) {r : Nat} (hr : r ≤ rcs.length) :
    (rk :: roundKeysFrom rk rcs)[r]? = some ((rcs.take r).foldl nextRoundKey rk) := by
  induction rcs generalizing rk r with
  | nil => simp_all
  | cons rc rcs ih =>
    cases r with
    | zero => rfl
    | succ r => simpa [roundKeysFrom] using ih (nextRoundKey rk rc) (r := r) (by simpa using hr)

/-- `RK_r` of the key `k` (R89). -/
def roundKey (k : Block) (r : Nat) : Block := (rcon.take r).foldl nextRoundKey k

/-- The model's list of round keys is `RK_0` to `RK_10`. -/
theorem roundKeys_getElem? (k : Block) {r : Nat} (hr : r ≤ 10) :
    (k :: roundKeys k)[r]? = some (roundKey k r) :=
  roundKeysFrom_getElem? rcon k hr

theorem roundKey_succ (k : Block) {r : Nat} (hr : r < 10) :
    roundKey k (r + 1) = nextRoundKey (roundKey k r) (rcon.getD r 0) := by
  have hlt : r < rcon.length := hr
  exact foldl_take_succ (by simp [hlt]) k

@[simp] theorem length_roundKeys (k : Block) : (roundKeys k).length = 10 := length_roundKeysFrom k rcon

/-! ## The words of a round key (R89) -/

theorem keyWord_getElem (rk : Block) (i b : Fin 4) : (keyWord rk i)[b] = lane rk b i := by
  fin_cases b <;> rfl

theorem xorWord_getElem (t u : KeyWord) (b : Fin 4) : (xorWord t u)[b] = t[b] ^^^ u[b] := by
  simp [xorWord]

/-- RotWord takes the next byte, and only byte 0 gets the round constant. -/
theorem rotSubRcon_getElem (t : KeyWord) (rc : Byte) (b : Fin 4) :
    (rotSubRcon t rc)[b] = sbox t[b + 1] ^^^ (if b = 0 then rc else 0) := by
  match b with
  | 0 => rfl
  | 1 | 2 | 3 => exact BitVec.xor_zero.symm

theorem keyWord_fourWords (w0 w1 w2 w3 : KeyWord) (i : Fin 4) :
    keyWord (w0 ++ w1 ++ w2 ++ w3) i = #v[w0, w1, w2, w3][i] := by
  apply Vector.ext
  intro b hb
  refine (keyWord_getElem _ i ⟨b, hb⟩).trans ?_
  rw [lane, getElem_fourWords]
  fin_cases i <;> simp (disch := omega) [dif_pos, dif_neg]

/-- The first word of a round key comes from the first and the last of the one before it. -/
theorem keyWord_nextRoundKey_zero (rk : Block) (rc : Byte) :
    keyWord (nextRoundKey rk rc) 0 = xorWord (keyWord rk 0) (rotSubRcon (keyWord rk 3) rc) :=
  keyWord_fourWords _ _ _ _ 0

/-- Each other word comes from its place in the round key before and from the word before it. -/
theorem keyWord_nextRoundKey_succ (rk : Block) (rc : Byte) (i : Fin 3) :
    keyWord (nextRoundKey rk rc) i.succ =
      xorWord (keyWord rk i.succ) (keyWord (nextRoundKey rk rc) i.castSucc) := by
  simp only [nextRoundKey, keyWord_fourWords]
  fin_cases i <;> rfl

/-! ## The 44 words of the key expansion (R89) -/

/-- Word `w[n]` of the key expansion of `k`: word `n mod 4` of `RK_(n div 4)` (R89). -/
def expandedWord (k : Block) (n : Nat) : KeyWord := keyWord (roundKey k (n / 4)) (Fin.ofNat 4 n)

theorem expandedWord_eq_keyWord (k : Block) (r : Nat) (i : Fin 4) :
    expandedWord k (4 * r + i.val) = keyWord (roundKey k r) i := by
  have hdiv : (4 * r + i.val) / 4 = r := by omega
  have hmod : Fin.ofNat 4 (4 * r + i.val) = i := by
    apply Fin.ext
    simp only [Fin.val_ofNat]
    omega
  rw [expandedWord, hdiv, hmod]

/-- A byte of round key `r`, as a byte of its word. -/
theorem roundKey_getElem (k : Block) (r : Nat) (i b : Fin 4) :
    (roundKey k r)[4 * i.val + b.val] = (expandedWord k (4 * r + i.val))[b] := by
  rw [expandedWord_eq_keyWord, keyWord_getElem, lane]
  congr 1
  omega

/-- R89's recurrence at every fourth word. -/
theorem expandedWord_of_mod_eq_zero (k : Block) {n : Nat} (h4 : 4 ≤ n) (h44 : n < 44) (hn : n % 4 = 0) :
    expandedWord k n = xorWord (expandedWord k (n - 4))
      (rotSubRcon (expandedWord k (n - 1)) (rcon.getD (n / 4 - 1) 0)) := by
  obtain ⟨r, rfl⟩ : ∃ r, n = 4 * (r + 1) := ⟨n / 4 - 1, by omega⟩
  have hprev : 4 * (r + 1) - 1 = 4 * r + 3 := by omega
  have hfour : 4 * (r + 1) - 4 = 4 * r := by omega
  have hconst : 4 * (r + 1) / 4 - 1 = r := by omega
  rw [hprev, hfour, hconst]
  calc expandedWord k (4 * (r + 1))
      = keyWord (roundKey k (r + 1)) 0 := expandedWord_eq_keyWord k (r + 1) 0
    _ = xorWord (keyWord (roundKey k r) 0) (rotSubRcon (keyWord (roundKey k r) 3) (rcon.getD r 0)) := by
      rw [roundKey_succ k (by omega), keyWord_nextRoundKey_zero]
    _ = _ := by rw [← expandedWord_eq_keyWord, ← expandedWord_eq_keyWord]; rfl

/-- R89's recurrence at the other words. -/
theorem expandedWord_of_mod_ne_zero (k : Block) {n : Nat} (h4 : 4 ≤ n) (h44 : n < 44) (hn : n % 4 ≠ 0) :
    expandedWord k n = xorWord (expandedWord k (n - 4)) (expandedWord k (n - 1)) := by
  obtain ⟨r, i, rfl⟩ : ∃ (r : Nat) (i : Fin 3), n = 4 * (r + 1) + i.succ.val :=
    ⟨n / 4 - 1, ⟨n % 4 - 1, by omega⟩, by simp only [Fin.val_succ]; omega⟩
  have hprev : 4 * (r + 1) + i.succ.val - 1 = 4 * (r + 1) + i.castSucc.val := rfl
  have hfour : 4 * (r + 1) + i.succ.val - 4 = 4 * r + i.succ.val := by omega
  rw [hprev, hfour]
  simp only [expandedWord_eq_keyWord]
  rw [roundKey_succ k (by omega), keyWord_nextRoundKey_succ]

/-- Settles O51 with the words `expandedWord k`: the recurrence is that of `nextRoundKey`, byte by byte. -/
theorem aesKeyExpansion : Obligations.AesKeyExpansion := by
  intro k
  refine ⟨expandedWord k, fun i b => ?_, fun n h4 h44 hn b => ?_, fun n h4 h44 hn b => ?_, by simp,
    fun r rk hrk i b => ?_⟩
  · simpa [roundKey] using (roundKey_getElem k 0 i b).symm
  · rw [expandedWord_of_mod_eq_zero k h4 h44 hn, xorWord_getElem, rotSubRcon_getElem, BitVec.xor_assoc]
  · rw [expandedWord_of_mod_ne_zero k h4 h44 hn, xorWord_getElem]
  · obtain ⟨hr, -⟩ := List.getElem?_eq_some_iff.mp hrk
    rw [roundKeys_getElem? k (by simpa [Nat.lt_succ_iff] using hr), Option.some.injEq] at hrk
    rw [← hrk, roundKey_getElem]

/-! ## The rounds of the cipher (R91) -/

/-- One of the nine full rounds of R91. -/
def fullRound (s rk : Block) : Block := addRoundKey (mixColumns (shiftRows (subBytes s))) rk

/-- Every round but the last is a full one. -/
theorem cipherRounds_append_last (rks : List Block) (s rk : Block) :
    cipherRounds s (rks ++ [rk]) = addRoundKey (shiftRows (subBytes (rks.foldl fullRound s))) rk := by
  induction rks generalizing s with
  | nil => rfl
  | cons rk' rks ih =>
    have hfull : cipherRounds s (rk' :: (rks ++ [rk])) = cipherRounds (fullRound s rk') (rks ++ [rk]) := by
      cases rks <;> rfl
    exact hfull.trans (ih (fullRound s rk'))

/-- The state of R91 after `r` full rounds. -/
def cipherState (k p : Block) (r : Nat) : Block :=
  ((roundKeys k).take r).foldl fullRound (addRoundKey p k)

theorem cipherState_succ (k p : Block) {r : Nat} (hr : r < 10) :
    cipherState k p (r + 1) = fullRound (cipherState k p r) (roundKey k (r + 1)) :=
  foldl_take_succ (by simpa using roundKeys_getElem? k (r := r + 1) hr) _

/-- The last round follows nine full ones. -/
theorem aes128_eq_last_round (k p : Block) :
    aes128 k p = addRoundKey (shiftRows (subBytes (cipherState k p 9))) (roundKey k 10) := by
  have hlast : (roundKeys k)[9]? = some (roundKey k 10) := roundKeys_getElem? k (r := 10) le_rfl
  have hsplit : roundKeys k = (roundKeys k).take 9 ++ [roundKey k 10] := by
    calc roundKeys k = (roundKeys k).take (9 + 1) := (List.take_of_length_le (by simp)).symm
      _ = _ := by rw [List.take_add_one, hlast]; rfl
  rw [aes128, hsplit, cipherRounds_append_last, cipherState]

/-- Settles O56 with the round keys `roundKey k` and the states `cipherState k p`. -/
theorem aesCipherRounds : Obligations.AesCipherRounds := by
  intro k p
  refine ⟨roundKey k, cipherState k p, fun r hr => roundKeys_getElem? k hr, rfl, fun r h1 h9 => ?_,
    aes128_eq_last_round k p⟩
  obtain ⟨q, rfl⟩ := Nat.exists_eq_add_of_le' h1
  exact cipherState_succ k p (by omega)

/-! ## ENCRYPT (R100) -/

/-- Settles O23: DOUT holds the words of the encrypted block, and the frame is that of a command outside the
generator. -/
theorem encryptCompletes : Obligations.EncryptCompletes := by
  intro s
  have h : exec .encrypt s =
      .next ((s.setDout (wordsOf (aes128 (bytesOf s.key) (bytesOf s.din)))).complete .ok) := rfl
  obtain ⟨hops, hrest, hcompleted⟩ := exec_common h
  exact ⟨_, h, bytesOf_wordsOf _, hcompleted, hops, exec_keeps_generator h nofun nofun, hrest, rfl, rfl,
    rfl⟩

end Sys2Proof.Machine
end

section
/-! PROOFS, family 41: SHA-256, HMAC and HKDF, and their commands (spec/41_kdf.md). -/

namespace Sys2Proof.Machine

/-! ## Padding and the split into blocks (R111) -/

/-- `shaPadLen n` zero bytes fill the last block up, and fewer do not. -/
theorem mod_shaPadLen_eq_zero (n : Nat) : (n + 1 + shaPadLen n + 8) % 64 = 0 := by
  unfold shaPadLen
  omega

theorem mod_ne_zero_of_lt_shaPadLen {n k : Nat} (h : k < shaPadLen n) : (n + 1 + k + 8) % 64 ≠ 0 := by
  unfold shaPadLen at h
  omega

/-- Induction on `n`: the first `n` blocks of 64 bytes join to the first `64 * n` bytes. -/
theorem flatten_map_range_take_drop (m : List Byte) (n : Nat) :
    ((List.range n).map fun i => (m.drop (64 * i)).take 64).flatten = m.take (64 * n) := by
  induction n with
  | zero => simp
  | succ n ih => simp [List.range_succ, ih, Nat.mul_succ, List.take_add]

theorem flatten_shaBlocks {m : List Byte} (h : m.length % 64 = 0) : (shaBlocks m).flatten = m := by
  rw [shaBlocks, flatten_map_range_take_drop, List.take_of_length_le (by omega)]

theorem length_of_mem_shaBlocks {m b : List Byte} (h : b ∈ shaBlocks m) : b.length = 64 := by
  obtain ⟨i, hi, rfl⟩ := List.mem_map.mp h
  rw [List.mem_range] at hi
  rw [List.length_take, List.length_drop]
  omega

@[simp] theorem length_shaBlocks (m : List Byte) : (shaBlocks m).length = m.length / 64 := by
  simp [shaBlocks]

/-- Settles O52 with `k = shaPadLen n`, which is below 64. -/
theorem shaPadding : Obligations.ShaPadding := by
  intro m
  have hlen := length_shaPad m
  have hmod := mod_shaPadLen_eq_zero m.length
  refine ⟨shaPadLen m.length, rfl, hmod, fun _ => mod_ne_zero_of_lt_shaPadLen,
    flatten_shaBlocks (by rw [hlen, hmod]), fun _ => length_of_mem_shaBlocks, ?_, fun hm => ?_⟩
  · rw [length_shaBlocks, hlen]
    congr 1
    omega
  · rw [length_shaBlocks, hlen]
    unfold shaPadLen
    omega

/-! ## The message schedule (R115) -/

/-- Word `t` of a block is the big-endian value of its bytes `4t .. 4t+3`. -/
theorem be32Words_getD {b : List Byte} {t : Nat} (h : 4 * t + 3 < b.length) :
    (be32Words b).getD t 0 =
      b.getD (4 * t) 0 ++ b.getD (4 * t + 1) 0 ++ b.getD (4 * t + 2) 0 ++ b.getD (4 * t + 3) 0 := by
  induction t generalizing b with
  | zero =>
    match b, h with
    | _ :: _ :: _ :: _ :: _, _ => rfl
  | succ t ih =>
    match b, h with
    | _ :: _ :: _ :: _ :: rest, h =>
      simp only [List.length_cons] at h
      simpa [be32Words, Nat.mul_succ] using ih (b := rest) (by omega)

/-- R115's recurrence: the word that follows the words `W[0..t)`. -/
def nextScheduleWord (W : List Word) (t : Nat) : Word :=
  shaSmallS1 (W.getD (t - 2) 0) + W.getD (t - 7) 0 + shaSmallS0 (W.getD (t - 15) 0) + W.getD (t - 16) 0

/-- The words that the schedule is extended from stay its last ones, newest first. -/
theorem suffix_extendSchedule (n : Nat) (ws : List Word) : ws <:+ extendSchedule n ws := by
  induction n generalizing ws with
  | zero => exact List.suffix_rfl
  | succ n ih => exact (List.suffix_cons _ ws).trans (ih _)

/-- Counted from the oldest word, a word of the schedule stays at its place. -/
theorem getD_reverse_of_suffix {ws us : List Word} (h : ws <:+ us) {t j : Nat}
    (ht : t + j + 1 = ws.length) : us.reverse.getD t 0 = ws.getD j 0 := by
  obtain ⟨newer, rfl⟩ := h
  have hj : ws.length - 1 - t = j := by omega
  rw [List.reverse_append, List.getD_append _ _ _ _ (by simp; omega)]
  simp [List.getD_eq_getElem?_getD, List.getElem?_reverse (show t < ws.length by omega), hj]

/-- Each word that the extension adds is the recurrence's. -/
theorem extendSchedule_getD {n : Nat} {ws : List Word} (h16 : 16 ≤ ws.length) {t : Nat} (ht : ws.length ≤ t)
    (hn : t < n + ws.length) :
    (extendSchedule n ws).reverse.getD t 0 = nextScheduleWord (extendSchedule n ws).reverse t := by
  induction n generalizing ws with
  | zero => omega
  | succ n ih =>
    obtain hlt | rfl := Nat.lt_or_eq_of_le ht
    · exact ih (by simp; omega) (by simpa using hlt) (by simp; omega)
    · have hold : ∀ j < ws.length,
          (extendSchedule (n + 1) ws).reverse.getD (ws.length - (j + 1)) 0 = ws.getD j 0 :=
        fun j hj => getD_reverse_of_suffix (suffix_extendSchedule _ ws) (by omega)
      rw [nextScheduleWord, hold 1 (by omega), hold 6 (by omega), hold 14 (by omega), hold 15 (by omega)]
      exact getD_reverse_of_suffix (j := 0) (suffix_extendSchedule n _) (by simp)

/-- Settles O53: the block's own words are the oldest of the schedule, the others are added to them. -/
theorem shaMessageSchedule : Obligations.ShaMessageSchedule := by
  intro b hb
  have hlen : (be32Words b).reverse.length = 16 := by
    rw [List.length_reverse, length_be32Words (n := 16) hb]
  refine ⟨length_shaSchedule hb, fun t ht => ?_, fun t h16 h64 => ?_⟩
  · calc (shaSchedule b).getD t 0
        = (be32Words b).reverse.getD (15 - t) 0 :=
          getD_reverse_of_suffix (suffix_extendSchedule 48 _) (by omega)
      _ = (be32Words b).reverse.reverse.getD t 0 :=
          (getD_reverse_of_suffix List.suffix_rfl (by omega)).symm
      _ = _ := by rw [List.reverse_reverse, be32Words_getD (by omega)]
  · exact extendSchedule_getD (by omega) (by omega) (by omega)

/-! ## The compression of one block (R116) -/

/-- `(a,b,c,d,e,f,g,h)` before round `t` of the compression of block `b` into `h`. -/
def roundState (h : HashState) (b : List Byte) (t : Nat) : HashState :=
  ((shaK.zip (shaSchedule b)).take t).foldl shaRound h

/-- T1 of R116, on `v` with `K[t]` and `W[t]`. -/
def roundT1 (v : HashState) (k w : Word) : Word := v[7] + shaBigS1 v[4] + shaCh v[4] v[5] v[6] + k + w

/-- T2 of R116. -/
def roundT2 (v : HashState) : Word := shaBigS0 v[0] + shaMaj v[0] v[1] v[2]

theorem shaRound_eq (v : HashState) (k w : Word) :
    shaRound v (k, w) =
      #v[roundT1 v k w + roundT2 v, v[0], v[1], v[2], v[3] + roundT1 v k w, v[4], v[5], v[6]] := rfl

/-- Round `t` takes `K[t]` and `W[t]`. -/
theorem roundState_succ (h : HashState) {b : List Byte} (hb : b.length = 64) {t : Nat} (ht : t < 64) :
    roundState h b (t + 1) = shaRound (roundState h b t) (shaK.getD t 0, (shaSchedule b).getD t 0) := by
  have hk : t < shaK.length := ht
  have hw : t < (shaSchedule b).length := by rwa [length_shaSchedule hb]
  exact foldl_take_succ (by simp [hk, hw]) h

theorem shaCompress_getElem (h : HashState) {b : List Byte} (hb : b.length = 64) (i : Fin 8) :
    (shaCompress h b)[i] = h[i] + (roundState h b 64)[i] := by
  have hall : (shaK.zip (shaSchedule b)).take 64 = shaK.zip (shaSchedule b) :=
    List.take_of_length_le (by simp [length_shaK, length_shaSchedule hb])
  simp [shaCompress, roundState, hall]

/-- Settles O57 with the round states `roundState h b`. -/
theorem shaCompression : Obligations.ShaCompression := by
  refine ⟨fun x y z => ⟨rfl, rfl, rfl, rfl, rfl, rfl⟩, fun h b hb => ?_⟩
  refine ⟨roundState h b, fun t => roundT1 (roundState h b t) (shaK.getD t 0) ((shaSchedule b).getD t 0),
    fun t => roundT2 (roundState h b t), rfl, fun t ht => ⟨rfl, rfl, ?_⟩, shaCompress_getElem h hb⟩
  rw [roundState_succ h hb ht, shaRound_eq]

/-! ## The hash of a message (R117) -/

/-- The hash state of R117 before block `i` of the padded message `m`. -/
def blockState (m : List Byte) (i : Nat) : HashState :=
  ((shaBlocks (shaPad m)).take i).foldl shaCompress hash0

theorem shaState_eq_blockState (m : List Byte) :
    shaState m = blockState m (shaBlocks (shaPad m)).length := by
  rw [blockState, List.take_length, shaState]

/-- The digest is the big-endian bytes of the last hash state. -/
theorem sha256_getElem (m : List Byte) (i : Fin 8) (j : Fin 4) :
    (sha256 m)[4 * i.val + j.val] = byteOfWord (shaState m)[i] (3 - j.val) := by
  have hdiv : (4 * i.val + j.val) / 4 = i.val := by omega
  have hmod : (4 * i.val + j.val) % 4 = j.val := by omega
  simp [sha256, hdiv, hmod]

/-- R117's example, the hash of the empty message. -/
theorem sha256_nil : (sha256 []).toList =
    [0xe3, 0xb0, 0xc4, 0x42, 0x98, 0xfc, 0x1c, 0x14, 0x9a, 0xfb, 0xf4, 0xc8, 0x99, 0x6f, 0xb9, 0x24] ++
    [0x27, 0xae, 0x41, 0xe4, 0x64, 0x9b, 0x93, 0x4c, 0xa4, 0x95, 0x99, 0x1b, 0x78, 0x52, 0xb8, 0x55] := by
  decide +kernel

/-- Settles O58 with the hash states `blockState m`. -/
theorem sha256Composition : Obligations.Sha256Composition := by
  refine ⟨fun m => ⟨blockState m, rfl, fun i b hb => foldl_take_succ hb hash0, fun i j => ?_⟩, sha256_nil⟩
  rw [← shaState_eq_blockState]
  exact sha256_getElem m i j

/-! ## HMAC and HKDF (R118, R119) -/

/-- R118's K0 of a key of one block at most. -/
theorem hmacKey0_of_length_le {k : List Byte} (h : k.length ≤ 64) :
    hmacKey0 k = k ++ List.replicate (64 - k.length) 0 := by
  simp [hmacKey0, Nat.not_lt.mpr h]

/-- R118's K0 of a longer key, whose hash has 32 bytes. -/
theorem hmacKey0_of_lt_length {k : List Byte} (h : 64 < k.length) :
    hmacKey0 k = (sha256 k).toList ++ List.replicate 32 0 := by
  simp [hmacKey0, h]

/-- Settles O59 with `k0 = hmacKey0 k`. -/
theorem hmacComposition : Obligations.HmacComposition :=
  ⟨fun k _ => ⟨hmacKey0 k, length_hmacKey0 k, hmacKey0_of_length_le, hmacKey0_of_lt_length, rfl⟩,
    fun ikm info _ _ h32 => ⟨rfl, length_hkdf ikm info h32⟩⟩

/-- Zero bytes at the end of a short key are the ones it would be padded with. -/
theorem hmacKey0_append_zeros {k : List Byte} {z : Nat} (h : k.length + z ≤ 64) :
    hmacKey0 (k ++ List.replicate z 0) = hmacKey0 k := by
  have hz : z + (64 - (k.length + z)) = 64 - k.length := by omega
  rw [hmacKey0_of_length_le (by simpa using h), hmacKey0_of_length_le (by omega), List.append_assoc,
    List.length_append, List.length_replicate, List.replicate_append_replicate, hz]

theorem hmac_append_zeros {k : List Byte} {z : Nat} (h : k.length + z ≤ 64) (m : List Byte) :
    hmac (k ++ List.replicate z 0) m = hmac k m := by
  rw [hmac, hmac, hmacKey0_append_zeros h]

/-- Settles O54: HMAC uses its key only through the padded key. -/
theorem hmacIgnoresKeyPadding : Obligations.HmacIgnoresKeyPadding :=
  ⟨fun _ m _ h => hmac_append_zeros h m,
    fun ikm => congrArg Vector.toList (hmac_append_zeros (k := []) (z := 32) (by decide) ikm)⟩

/-! ## HKDF and HMAC as commands (R120, R121) -/

theorem toList_zeroFill {n : Nat} {bs : List Byte} (h : bs.length ≤ n) :
    (zeroFill n bs).toList = bs ++ List.replicate (n - bs.length) 0 := by
  apply List.ext_getElem
  · simp [h]
  · intro i hi _
    rw [Vector.getElem_toList, zeroFill_getElem, List.getElem_append]
    split_ifs with hlt
    · rw [List.getD_eq_getElem _ _ hlt]
    · rw [List.getD_eq_default _ _ (by omega), List.getElem_replicate]

/-- HKDF with both byte counts in range (R120). -/
theorem exec_hkdf_of_inRange {l m : Nat} (h1 : 1 ≤ l) (h32 : l ≤ 32) (h64 : m ≤ 64) (s : State) :
    exec (.hkdf l m) s =
      .next ((s.setDk (wordsOf (zeroFill 32 (hkdf (bytesOf s.key).toList (msgPrefix s m) l)))).complete .ok) := by
  have hok : ¬(l < 1 ∨ l > dkBytes ∨ m > msgBytes) := by simp only [dkBytes, msgBytes]; omega
  exact congrArg Host.Outcome.next (if_neg hok)

/-- HMAC with its byte count in range (R121). -/
theorem exec_hmac_of_inRange {m : Nat} (h64 : m ≤ 64) (s : State) :
    exec (.hmac m) s =
      .next ((s.setDk (wordsOf (hmac (bytesOf s.key).toList (msgPrefix s m)))).complete .ok) := by
  have hok : ¬m > msgBytes := by simp only [msgBytes]; omega
  exact congrArg Host.Outcome.next (if_neg hok)

/-- Settles O24: DK holds the words of the derived bytes, zero-filled, and the frame is that of a command
outside the generator. -/
theorem hkdfCompletes : Obligations.HkdfCompletes := by
  intro s l m h1 h32 h64
  have h := exec_hkdf_of_inRange h1 h32 h64 s
  obtain ⟨hops, hrest, hcompleted⟩ := exec_common h
  have hlen := length_hkdf (bytesOf s.key).toList (msgPrefix s m) h32
  have hdk := toList_zeroFill (hlen.trans_le h32)
  rw [hlen] at hdk
  refine ⟨_, h, ?_, hcompleted, hops, exec_keeps_generator h nofun nofun, hrest, rfl, rfl, rfl⟩
  rw [State.complete_dk, State.setDk_dk, bytesOf_wordsOf]
  exact hdk

/-- Settles O25: DK holds the words of the HMAC. -/
theorem hmacCompletes : Obligations.HmacCompletes := by
  intro s m h64
  have h := exec_hmac_of_inRange h64 s
  obtain ⟨hops, hrest, hcompleted⟩ := exec_common h
  exact ⟨_, h, bytesOf_wordsOf _, hcompleted, hops, exec_keeps_generator h nofun nofun, hrest, rfl, rfl, rfl⟩

/-- Settles O26: both commands only complete, with ERR_FIELD. -/
theorem fieldErrors : Obligations.FieldErrors := by
  intro s i _ hi
  have h : exec i s = .next (s.complete .field) := by
    obtain ⟨l, m, rfl, hout⟩ | ⟨m, rfl, hout⟩ := hi
    · have hbad : l < 1 ∨ l > dkBytes ∨ m > msgBytes := hout
      exact congrArg Host.Outcome.next (if_pos hbad)
    · have hbad : m > msgBytes := hout
      exact congrArg Host.Outcome.next (if_pos hbad)
  obtain ⟨hops, hrest, hcompleted⟩ := exec_common h
  exact ⟨_, h, hcompleted, hops, ⟨rfl, rfl, rfl, rfl⟩, ⟨rfl, rfl, rfl, rfl⟩, hrest⟩

end Sys2Proof.Machine
end

section
/-! PROOFS, family 42: the interval clock, the padded block, and NOP, INTERVAL and PAD
(spec/42_interval_pad.md). -/

namespace Sys2Proof.Machine

/-! ## INTERVAL and the interval clock (R140, R142) -/

/-- Settles O27: the interval number of a 64-bit time survives the way through JVAL. -/
theorem intervalCompletes : Obligations.IntervalCompletes := by
  intro s tsel
  have h : exec (.interval tsel) s =
      .next ((s.setJval (u64 (interval (selectedTime tsel s)))).complete .ok) := rfl
  obtain ⟨hops, hrest, hcompleted⟩ := exec_common h
  refine ⟨_, h, ?_, hcompleted, hops, exec_keeps_generator h nofun nofun, hrest, rfl, rfl, rfl⟩
  cases tsel with
  | timeBegin => exact s64_u64_interval s.tbegin
  | timeEnd => exact s64_u64_interval s.tend

/-- Settles O48: each clause is linear in the bounds of the floor. -/
theorem intervalClock : Obligations.IntervalClock := by
  refine ⟨fun t => ?_, fun t t' hle => ?_, fun k => ?_, fun t hlow hhigh => ?_⟩
  · have := interval_spec t
    omega
  · have := interval_spec t
    have := interval_spec t'
    omega
  · rw [interval_eq_iff]
    omega
  · have := interval_spec t
    omega

/-! ## The padded block (R141) -/

/-- Byte `k` of a word is its base-256 digit `k` (R41). -/
theorem toNat_byteOfWord (w : Word) (k : Nat) : (byteOfWord w k).toNat = w.toNat / 256 ^ k % 256 := by
  rw [byteOfWord, BitVec.extractLsb'_toNat, Nat.shiftRight_eq_div_pow, Nat.pow_mul]

/-- The word of an interval number that fits holds the number. -/
theorem toNat_ofInt_of_fitsPad {j : Int} (h : fitsPad j = true) :
    ((BitVec.ofInt 32 j).toNat : Int) = j := by
  have ⟨h0, hmax⟩ := (fitsPad_iff j).mp h
  rw [BitVec.toNat_ofInt]
  omega

/-- The bytes of a padded block before the number. -/
theorem toList_padBlock_take {j : Int} (h : fitsPad j = true) :
    (padBlock j).toList.take 12 = tag.toList ++ List.replicate 6 0 := by
  rw [padBlock_eq h]
  rfl

/-- The last four bytes of a padded block are those of the number's word. -/
theorem padBlock_getElem {j : Int} (h : fitsPad j = true) (k : Fin 4) :
    (padBlock j)[12 + k.val] = byteOfWord (BitVec.ofInt 32 j) k.val := by
  rw [padBlock_eq h]
  fin_cases k <;> rfl

/-- They are the number's base-256 digits, the least significant one first. -/
theorem toNat_padBlock_getElem {j : Int} (h : fitsPad j = true) (k : Fin 4) :
    ((padBlock j)[12 + k.val].toNat : Int) = j / 256 ^ k.val % 256 := by
  rw [padBlock_getElem h, toNat_byteOfWord]
  push_cast
  rw [toNat_ofInt_of_fitsPad h]

/-- Settles O49: the four digits of a number below `256 ^ 4` add up to it. -/
theorem padLayout : Obligations.PadLayout := by
  intro j h0 hmax
  have hfit := (fitsPad_iff j).mpr ⟨h0, hmax⟩
  have hdigit := toNat_padBlock_getElem hfit
  refine ⟨toList_padBlock_take hfit, hdigit, ?_⟩
  have hd0 : ((padBlock j)[12].toNat : Int) = j / 1 % 256 := hdigit 0
  have hd1 : ((padBlock j)[13].toNat : Int) = j / 256 % 256 := hdigit 1
  have hd2 : ((padBlock j)[14].toNat : Int) = j / 65536 % 256 := hdigit 2
  have hd3 : ((padBlock j)[15].toNat : Int) = j / 16777216 % 256 := hdigit 3
  rw [hd0, hd1, hd2, hd3]
  omega

/-! ## PAD (R143) -/

/-- PAD on an interval number that fits writes the padded block to DIN. -/
theorem exec_pad_of_fitsPad {s : State} (h : fitsPad (s64 s.jval) = true) :
    exec .pad s = .next ((s.setDin (wordsOf (padBlock (s64 s.jval)))).complete .ok) :=
  congrArg Host.Outcome.next (if_pos h)

/-- PAD on any other one only completes. -/
theorem exec_pad_of_not_fitsPad {s : State} (h : ¬fitsPad (s64 s.jval) = true) :
    exec .pad s = .next (s.complete .range) :=
  congrArg Host.Outcome.next (if_neg h)

/-- Settles O28: DIN holds the words of the padded block. -/
theorem padCompletes : Obligations.PadCompletes := by
  intro s h0 hmax
  have h := exec_pad_of_fitsPad ((fitsPad_iff _).mpr ⟨h0, hmax⟩)
  obtain ⟨hops, hrest, hcompleted⟩ := exec_common h
  exact ⟨_, h, bytesOf_wordsOf _, hcompleted, hops, exec_keeps_generator h nofun nofun, hrest, rfl, rfl, rfl⟩

/-- Settles O29: a number on either side of the range does not fit. -/
theorem padRangeError : Obligations.PadRangeError := by
  intro s hout
  have hfit : ¬fitsPad (s64 s.jval) = true := by
    rw [fitsPad_iff]
    omega
  have h := exec_pad_of_not_fitsPad hfit
  obtain ⟨hops, hrest, hcompleted⟩ := exec_common h
  exact ⟨_, h, hcompleted, hops, exec_keeps_generator h nofun nofun, ⟨rfl, rfl, rfl, rfl⟩, hrest⟩

/-! ## NOP (R144) -/

/-- The row of NOP has the one word 0. -/
theorem matches_nop_iff (w : Word) : w &&& Op.nop.mask = Op.nop.pattern ↔ w = 0 := by
  show w &&& BitVec.allOnes 32 = 0 ↔ w = 0
  rw [BitVec.and_allOnes]

/-- A word with OP = 0x00 that matches a row is 0, since no other row's pattern has that OP. -/
theorem eq_zero_of_row_of_opcode_zero {w : Word} {c : Op} (hop : w.extractLsb' 0 8 = 0)
    (hrow : w &&& c.mask = c.pattern) : w = 0 := by
  have hfield : c.pattern.extractLsb' 0 8 = 0 := by
    rw [← extractLsb'_of_masked (by cases c <;> rfl) hrow]
    exact hop
  obtain rfl : c = .nop := by
    revert hfield
    cases c <;> decide
  exact (matches_nop_iff w).mp hrow

/-- Settles O22: NOP only completes, its row has one word, and the other words of its OP match no row. -/
theorem nopCompletes : Obligations.NopCompletes := by
  refine ⟨fun s => ?_, fun w => ?_, fun s hop hne => ?_⟩
  · have h : exec .nop s = .next (s.complete .ok) := rfl
    obtain ⟨hops, hrest, hcompleted⟩ := exec_common h
    exact ⟨_, h, hcompleted, hops, exec_keeps_generator h nofun nofun, ⟨rfl, rfl, rfl, rfl⟩, hrest⟩
  · exact (decode_ok_iff_op w .nop).trans ((and_iff_left rfl).trans (matches_nop_iff w))
  · exact ⟨_, engineMove_of_no_row fun c hrow => hne (eq_zero_of_row_of_opcode_zero hop hrow), rfl⟩

end Sys2Proof.Machine
end

section
/-! PROOFS, family 43: the identifier sequence generator (spec/43_sequence.md). -/

namespace Sys2Proof.Machine

/-! ## RPI_START (R162, R165) -/

/-- A check of RPI_START that does not pass fails by the cap first (R183). -/
theorem startCode_of_ne_ok {cap : Nat} {jB jE : Int} (h : startCode cap jB jE ≠ .ok) :
    startCode cap jB jE = if (cap : Int) < jE - jB then .limit else .range := by
  unfold startCode at h ⊢
  split_ifs at h ⊢ with hlimit hrange
  · rfl
  · rfl
  · exact absurd rfl h

/-- The stored subkey is HKDF's whole output of 16 bytes (R119). -/
theorem toList_rpiSubkey (key : Block) :
    (rpiSubkey key).toList = hkdf key.toList rpikInfo rpikLen := by
  have hlen : (hkdf key.toList rpikInfo rpikLen).length = 16 := length_hkdf _ _ (by decide)
  rw [rpiSubkey, toList_zeroFill hlen.le, hlen]
  exact List.append_nil _

/-- Settles O30: of the two ends of RPI_START the checks leave the successful one. -/
theorem rpiStartCompletes : Obligations.RpiStartCompletes := by
  intro s jB jE hB hE hcap hfits
  obtain rfl : interval (s64 s.tbegin) = jB := hB.symm
  obtain rfl : interval (s64 s.tend) = jE := hE.symm
  have hok : startCode s.cfg.cap (interval (s64 s.tbegin)) (interval (s64 s.tend)) = .ok :=
    startCode_eq_ok_iff.mpr ⟨hcap, fun hle => hfits.resolve_left (not_lt.mpr hle)⟩
  obtain ⟨t, h⟩ := exec_next .rpiStart s
  obtain ⟨hops, hrest, hcompleted⟩ := exec_common h
  obtain ⟨c, hc, hne, -⟩ | ⟨-, rfl⟩ := execRpiStart_cases h
  · exact absurd (hc.symm.trans hok) hne
  · refine ⟨_, h, ?_, s64_u64_interval _, s64_u64_interval _, ?_, hcompleted, hops,
      ⟨rfl, rfl, rfl, rfl⟩, hrest⟩
    · simp only [State.complete_subkey, State.setRemain_subkey, State.setJlast_subkey,
        State.setJcur_subkey, State.setSubkey_subkey, bytesOf_wordsOf]
      exact toList_rpiSubkey _
    · rw [State.complete_remain, State.setRemain_remain, remain_of_rangeCount _ hcap, rangeCount,
        Int.toNat_eq_max, max_comm]

/-- Only the word 0x00000006 matches a row with OP = 0x06 (R65). -/
theorem eq_six_of_row_of_opcode_six {w : Word} {c : Op} (hop : w.extractLsb' 0 8 = 0x06)
    (hrow : w &&& c.mask = c.pattern) : w = 0x00000006 := by
  have hfield := ofField_of_row hrow
  rw [opField, hop] at hfield
  obtain rfl : Op.rpiStart = c := Option.some.inj hfield
  rw [← BitVec.and_allOnes (x := w)]
  exact hrow

/-- Settles O31: of the two ends of RPI_START the checks leave the failing one; the other words of its
OP match no row. -/
theorem rpiStartFails : Obligations.RpiStartFails := by
  refine ⟨?_, fun s hop hne => ?_⟩
  · intro s jB jE hB hE hout
    obtain rfl : interval (s64 s.tbegin) = jB := hB.symm
    obtain rfl : interval (s64 s.tend) = jE := hE.symm
    have hbad : startCode s.cfg.cap (interval (s64 s.tbegin)) (interval (s64 s.tend)) ≠ .ok := by
      rw [ne_eq, startCode_eq_ok_iff]
      omega
    obtain ⟨t, h⟩ := exec_next .rpiStart s
    obtain ⟨hops, hrest, hcompleted⟩ := exec_common h
    obtain ⟨c, rfl, -, rfl⟩ | ⟨hok, -⟩ := execRpiStart_cases h
    · rw [startCode_of_ne_ok hbad] at h hops hrest hcompleted
      exact ⟨_, h, hcompleted, rfl, rfl, rfl, rfl, rfl, hops, ⟨rfl, rfl, rfl, rfl⟩, hrest⟩
    · exact absurd hok hbad
  · exact ⟨_, engineMove_of_no_row fun c hrow => hne (eq_six_of_row_of_opcode_six hop hrow), rfl, rfl⟩

/-! ## RPI_NEXT (R163) -/

/-- RPI_NEXT with an identifier left. -/
theorem exec_rpiNext_of_left {s : State} (h : s.remain ≠ 0) :
    exec .rpiNext s =
      .next ((((s.setDout (wordsOf (aes128 (bytesOf s.subkey) (padBlock (s64 s.jcur))))).setJcur
        (u64 (s64 s.jcur + 1))).setRemain (s.remain - 1)).complete .ok) :=
  congrArg Host.Outcome.next (if_neg h)

/-- RPI_NEXT with none left only completes. -/
theorem exec_rpiNext_of_none {s : State} (h : s.remain = 0) :
    exec .rpiNext s = .next (s.complete .seq) :=
  congrArg Host.Outcome.next (if_pos h)

/-- Settles O33: the completion alone writes no result and no generator register. -/
theorem rpiNextSeqError : Obligations.RpiNextSeqError := by
  intro s h0
  have h := exec_rpiNext_of_none h0
  obtain ⟨hops, hrest, hcompleted⟩ := exec_common h
  exact ⟨_, h, hcompleted, hops, ⟨rfl, rfl, rfl, rfl⟩, ⟨rfl, rfl, rfl, rfl⟩, hrest⟩

theorem toNat_sub_one_add_one {r : Word} (h : r ≠ 0) : (r - 1).toNat + 1 = r.toNat := by
  bv_omega

/-- Settles O32: R35 (b) keeps JCUR inside the signed range, so its successor is stored as it is. -/
theorem rpiNextCompletes : Obligations.RpiNextCompletes := by
  intro s hinv hleft
  obtain ⟨hlow, hle, hhigh, -⟩ := hinv.position hleft
  have h := exec_rpiNext_of_left hleft
  obtain ⟨hops, hrest, hcompleted⟩ := exec_common h
  exact ⟨_, h, bytesOf_wordsOf _, s64_u64 (by omega) (by omega), toNat_sub_one_add_one hleft, rfl, rfl,
    hcompleted, hops, hrest, rfl, rfl, rfl⟩

/-- Settles O47, by whether an identifier is left: what RPI_NEXT writes is a function of SUBKEY, JCUR and
REMAIN. -/
theorem rpiNextReadsGeneratorOnly : Obligations.RpiNextReadsGeneratorOnly := by
  intro s s' t t' hsk hjc hrem h h'
  obtain ⟨h0, rfl⟩ | ⟨hne, rfl⟩ := execRpiNext_cases h
  · rw [exec_rpiNext_of_none (hrem.trans h0)] at h'
    cases h'
    exact ⟨hjc, hrem, rfl, fun hne => absurd h0 hne, fun _ => ⟨rfl, rfl⟩⟩
  · rw [exec_rpiNext_of_left (hrem ▸ hne), hsk, hjc, hrem] at h'
    cases h'
    exact ⟨rfl, rfl, rfl, fun _ => rfl, fun h0 => absurd h0 hne⟩

/-! ## The identifiers of a range and of the running sequence (R160, R164) -/

/-- The identifiers of `n` intervals from `j` on, under the subkey `sk`. -/
def identifiersFrom (sk : Block) (j : Int) (n : Nat) : List Block :=
  (List.range n).map fun k : Nat => aes128 sk (padBlock (j + k))

@[simp] theorem length_identifiersFrom (sk : Block) (j : Int) (n : Nat) :
    (identifiersFrom sk j n).length = n := by
  simp [identifiersFrom]

theorem identifiersFrom_succ (sk : Block) (j : Int) (n : Nat) :
    identifiersFrom sk j (n + 1) = aes128 sk (padBlock j) :: identifiersFrom sk (j + 1) n := by
  simp [identifiersFrom, List.range_succ_eq_map, Function.comp_def, add_assoc, add_comm (1 : Int)]

theorem upcoming_eq (s : State) :
    upcoming s = identifiersFrom (bytesOf s.subkey) (s64 s.jcur) s.remain.toNat := rfl

theorem length_upcoming (s : State) : (upcoming s).length = s.remain.toNat := length_identifiersFrom ..

theorem upcoming_eq_nil_iff (s : State) : upcoming s = [] ↔ s.remain = 0 := by
  rw [← List.length_eq_zero_iff, length_upcoming, BitVec.toNat_eq]
  rfl

theorem upcoming_of_keepsGenerator {s t : State} (h : KeepsGenerator s t) : upcoming t = upcoming s := by
  obtain ⟨hsk, hjc, -, hrem⟩ := h
  rw [upcoming_eq, hsk, hjc, hrem, upcoming_eq]

/-- When the checks pass, `RollingIds` is the list of the range's identifiers, none if it is empty. -/
theorem rollingIds_of_ok {cap : Nat} {tB tE : Int} (ek : Block)
    (h : startCode cap (interval tB) (interval tE) = .ok) :
    rollingIds cap ek tB tE =
      .ok (identifiersFrom (rpiSubkey ek) (interval tB) (rangeCount (interval tB) (interval tE))) := by
  obtain ⟨hcap, hfits⟩ := startCode_eq_ok_iff.mp h
  rw [rollingIds, if_neg (not_lt.mpr hcap)]
  split_ifs with hempty hout
  · have h0 : rangeCount (interval tB) (interval tE) = 0 := by
      unfold rangeCount
      omega
    rw [h0]
    rfl
  · omega
  · rfl

/-- When they do not, `RollingIds` is the error of the check that failed. -/
theorem rollingIds_of_ne_ok {cap : Nat} {tB tE : Int} (ek : Block)
    (h : startCode cap (interval tB) (interval tE) ≠ .ok) :
    rollingIds cap ek tB tE =
      .error (if (cap : Int) < interval tE - interval tB then .limit else .range) := by
  rw [ne_eq, startCode_eq_ok_iff] at h
  dsimp only [rollingIds]
  split_ifs with hlimit hempty hout
  · rfl
  · omega
  · rfl
  · omega

/-- After an RPI_START that passes its checks the sequence still to come is the range's. -/
theorem upcoming_of_execRpiStart_ok {s t : State} (h : execRpiStart s = .next t)
    (hok : startCode s.cfg.cap (interval (s64 s.tbegin)) (interval (s64 s.tend)) = .ok) :
    t.errcode = .ok ∧ upcoming t = identifiersFrom (rpiSubkey (bytesOf s.key)) (interval (s64 s.tbegin))
      (rangeCount (interval (s64 s.tbegin)) (interval (s64 s.tend))) := by
  obtain ⟨c, hc, hne, -⟩ | ⟨-, rfl⟩ := execRpiStart_cases h
  · exact absurd (hc.symm.trans hok) hne
  · obtain ⟨hcap, -⟩ := startCode_eq_ok_iff.mp hok
    refine ⟨rfl, ?_⟩
    simp [upcoming_eq, s64_u64_interval, remain_of_rangeCount _ hcap]

/-- RPI_NEXT takes the first of the identifiers still to come and puts it into DOUT. -/
theorem upcoming_eq_cons_of_execRpiNext {s t : State} (hinv : Inv s) (hleft : s.remain ≠ 0)
    (h : exec .rpiNext s = .next t) :
    t.errcode = .ok ∧ upcoming s = bytesOf t.dout :: upcoming t := by
  obtain ⟨t', h', hdout, hjcur, hcount, hsubkey, -, hcompleted, -⟩ := rpiNextCompletes s hinv hleft
  obtain rfl : t' = t := Host.Outcome.next.inj (h'.symm.trans h)
  refine ⟨hcompleted.errcode, ?_⟩
  rw [upcoming_eq, ← hcount, identifiersFrom_succ, ← hdout, ← hjcur, ← hsubkey, ← upcoming_eq]

/-! ## Steps (R166) -/

theorem completes_eq_some_iff {s : State} {i : Instr} :
    completes s = some i ↔ mover s = some .engine ∧ decode s.pending = .ok i := by
  unfold completes
  split_ifs with hm
  · cases decode s.pending <;> simp [hm]
  · simp [hm]

/-- A step that completes a command is that command, on the state whose turn is used up (R66). -/
theorem step_of_completes {s : State} {i : Instr} (h : completes s = some i) :
    step s = exec i s.popTurn := by
  obtain ⟨hm, hdec⟩ := completes_eq_some_iff.mp h
  exact stepRunsDecoded s i hm hdec

theorem step_keepsGenerator {s t : State} (h : step s = .next t) (hreset : mover s ≠ some .reset)
    (hstart : completes s ≠ some .rpiStart) (hnext : completes s ≠ some .rpiNext) :
    KeepsGenerator s t := by
  obtain ⟨hm, -⟩ | ⟨hm, he⟩ | ⟨-, rfl⟩ | ⟨-, rfl⟩ := step_cases h
  · exact absurd hm hreset
  · obtain ⟨i, hdec, hx⟩ | ⟨e, -, rfl⟩ := engineMove_cases he
    · have hi : completes s = some i := completes_eq_some_iff.mpr ⟨hm, hdec⟩
      rw [hi, ne_eq, Option.some.injEq] at hstart hnext
      obtain ⟨hsk, hjc, hjl, hrem⟩ := exec_keeps_generator hx hstart hnext
      exact ⟨hsk, hjc, hjl, hrem⟩
    · exact ⟨rfl, rfl, rfl, rfl⟩
  · obtain ⟨⟨hsk, hjc, hjl, hrem⟩, -⟩ := hostMove_keeps s.popTurn
    exact ⟨hsk, hjc, hjl, hrem⟩
  · exact ⟨rfl, rfl, rfl, rfl⟩

/-- Settles O39: by the mover of the step. -/
theorem generatorIsolation : Obligations.GeneratorIsolation := by
  intro s t h hreset hstart hnext
  have hkept := step_keepsGenerator h hreset hstart hnext
  exact ⟨hkept, upcoming_of_keepsGenerator hkept⟩

/-- The identifiers that the step from `s` to `t` puts into DOUT: one, if it is a successful RPI_NEXT. -/
def produced (s t : State) : List Block :=
  if completes s = some .rpiNext ∧ t.errcode = .ok then [bytesOf t.dout] else []

/-- A step moves an identifier from those still to come to those produced, or does neither, unless it is
a reset or an RPI_START. -/
theorem produced_append_upcoming {s t : State} (hinv : Inv s) (h : step s = .next t)
    (hreset : mover s ≠ some .reset) (hstart : completes s ≠ some .rpiStart) :
    produced s t ++ upcoming t = upcoming s := by
  by_cases hnext : completes s = some .rpiNext
  · rw [step_of_completes hnext] at h
    by_cases hleft : s.remain = 0
    · rw [exec_rpiNext_of_none (s := s.popTurn) hleft] at h
      cases h
      rw [produced, if_neg (by simp)]
      rfl
    · have hpop : Inv s.popTurn := hinv.of_keepsGenerator ⟨rfl, rfl, rfl, rfl⟩ rfl
      obtain ⟨hok, hcons⟩ := upcoming_eq_cons_of_execRpiNext hpop hleft h
      rw [produced, if_pos ⟨hnext, hok⟩]
      exact hcons.symm
  · rw [produced, if_neg fun hp => hnext hp.1]
    exact upcoming_of_keepsGenerator (step_keepsGenerator h hreset hstart hnext)

/-! ## Undisturbed runs (R161, R167) -/

theorem identifiers_succ {s t : State} (h : step s = .next t) (n : Nat) :
    identifiers (n + 1) s = produced s t ++ identifiers n t := by
  simp only [identifiers, h, produced]

theorem undisturbed_succ {s t : State} (h : step s = .next t) (n : Nat) :
    undisturbed (n + 1) s = true ↔
      mover s ≠ some .reset ∧ completes s ≠ some .rpiStart ∧ undisturbed n t = true := by
  simp only [undisturbed, h, Bool.and_eq_true, bne_iff_ne, and_assoc]

/-- Every run answers a state, since every step does (R181). -/
theorem run_next (n : Nat) (s : State) : ∃ t, core.run n s = .next t := by
  induction n generalizing s with
  | zero => exact ⟨s, rfl⟩
  | succ n ih =>
    obtain ⟨t, h⟩ := step_next s
    rw [run_succ h]
    exact ih t

/-- Along an undisturbed run, what is produced followed by what is still to come stays the same list: by
induction on the steps, each of which keeps R35 and moves at most one identifier over. -/
theorem identifiers_append_upcoming {n : Nat} {s t : State} (hinv : Inv s)
    (hund : undisturbed n s = true) (hrun : core.run n s = .next t) :
    identifiers n s ++ upcoming t = upcoming s := by
  induction n generalizing s with
  | zero =>
    cases hrun
    rfl
  | succ n ih =>
    obtain ⟨u, h⟩ := step_next s
    obtain ⟨hreset, hstart, hund'⟩ := (undisturbed_succ h n).mp hund
    rw [run_succ h] at hrun
    rw [identifiers_succ h, List.append_assoc, ih (invKeptByStep s u hinv h) hund' hrun]
    exact produced_append_upcoming hinv h hreset hstart

/-- With no identifier left an undisturbed run produces none and leaves none. -/
theorem identifiers_eq_nil_of_remain_eq_zero {n : Nat} {s t : State} (h0 : s.remain = 0)
    (hund : undisturbed n s = true) (hrun : core.run n s = .next t) :
    identifiers n s = [] ∧ t.remain = 0 := by
  have hlist := identifiers_append_upcoming (inv_of_remain_eq_zero h0) hund hrun
  rwa [(upcoming_eq_nil_iff s).mpr h0, List.append_eq_nil_iff, upcoming_eq_nil_iff] at hlist

/-- RPI_NEXT as a step: it succeeds exactly while an identifier is left (R163). -/
theorem step_rpiNext_code {s t : State} (hnext : completes s = some .rpiNext) (h : step s = .next t) :
    (upcoming s ≠ [] → t.errcode = .ok) ∧ (upcoming s = [] → t.errcode = .seq ∧ t.dout = s.dout) := by
  rw [step_of_completes hnext] at h
  rw [ne_eq, upcoming_eq_nil_iff]
  obtain ⟨h0, rfl⟩ | ⟨hne, rfl⟩ := execRpiNext_cases h
  · exact ⟨fun hne => absurd h0 hne, fun _ => ⟨rfl, rfl⟩⟩
  · exact ⟨fun _ => rfl, fun h0 => absurd h0 hne⟩

/-- Settles O45: by the two ends of RPI_START, which are those of `RollingIds`; every state that RPI_START
answers keeps R35, so what the undisturbed run produces and leaves is what was to come at its start. -/
theorem rollingIdsCorrespondence : Obligations.RollingIdsCorrespondence := by
  refine ⟨fun s t h => ?_, fun u v => step_rpiNext_code⟩
  have hinv : Inv t := execRpiStart_inv h
  obtain ⟨c, rfl, hbad, rfl⟩ | ⟨hok, -⟩ := execRpiStart_cases h
  · rw [rollingIds_of_ne_ok _ hbad, startCode_of_ne_ok hbad]
    split_ifs
    · exact ⟨rfl, fun n u => identifiers_eq_nil_of_remain_eq_zero rfl⟩
    · exact ⟨rfl, fun n u => identifiers_eq_nil_of_remain_eq_zero rfl⟩
  · obtain ⟨herr, hcoming⟩ := upcoming_of_execRpiStart_ok h hok
    rw [rollingIds_of_ok _ hok, ← hcoming]
    exact ⟨herr, (length_upcoming t).symm,
      fun n u hund hrun => (identifiers_append_upcoming hinv hund hrun).symm⟩

/-- Settles O46: the run produces a part of what was to come after RPI_START, at most CAP + 1 by R35 (c). -/
theorem sequenceBound : Obligations.SequenceBound := by
  intro s t h n hund
  have hinv : Inv t := execRpiStart_inv h
  obtain ⟨-, hrest, -⟩ := exec_common h
  obtain ⟨u, hrun⟩ := run_next n t
  calc (identifiers n t).length
      ≤ (upcoming t).length := by
        rw [← identifiers_append_upcoming hinv hund hrun, List.length_append]
        exact Nat.le_add_right _ _
    _ = t.remain.toNat := length_upcoming t
    _ ≤ s.cfg.cap.val + 1 := hrest.cfg ▸ hinv.bound

end Sys2Proof.Machine
end

section
/-! PROOFS, family 60: result codes and what a failing command leaves alone (spec/60_exceptions.md). -/

namespace Sys2Proof.Machine

/-! ## The code of a command (R180, R183) -/

/-- The checks of RPI_START fail with ERR_LIMIT exactly over the cap, whatever the range (R183). -/
theorem startCode_eq_limit_iff {cap : Nat} {jB jE : Int} :
    startCode cap jB jE = .limit ↔ (cap : Int) < jE - jB := by
  unfold startCode
  split_ifs with hlimit <;> simpa using hlimit

/-- They fail with ERR_RANGE exactly within the cap, on a non-empty range that does not fit (R183). -/
theorem startCode_eq_range_iff {cap : Nat} {jB jE : Int} :
    startCode cap jB jE = .range ↔ jE - jB ≤ cap ∧ jB ≤ jE ∧ (jB < 0 ∨ 4294967295 < jE) := by
  unfold startCode
  split_ifs <;> simp only [true_iff, false_iff] <;> omega

/-- The three ends of the checks of RPI_START (R162). -/
theorem startCode_cases (cap : Nat) (jB jE : Int) :
    startCode cap jB jE = .ok ∨ startCode cap jB jE = .range ∨ startCode cap jB jE = .limit := by
  unfold startCode
  split_ifs <;> simp

/-- The checks of RPI_START raise no code of another command. -/
theorem startCode_ne {cap : Nat} {jB jE : Int} {c : Code} (hok : c ≠ .ok) (hrange : c ≠ .range)
    (hlimit : c ≠ .limit) : startCode cap jB jE ≠ c := by
  obtain h | h | h := startCode_cases cap jB jE <;> rw [h]
  · exact hok.symm
  · exact hrange.symm
  · exact hlimit.symm

/-- The code that the command `i` ends with from `s` (R100, R120, R121, R142 to R144, R162, R163). -/
def commandCode (i : Instr) (s : State) : Code :=
  match i with
  | .nop => .ok
  | .encrypt => .ok
  | .hkdf l m => if l < 1 ∨ 32 < l ∨ 64 < m then .field else .ok
  | .hmac m => if 64 < m then .field else .ok
  | .interval _ => .ok
  | .pad => if fitsPad (s64 s.jval) then .ok else .range
  | .rpiStart => startCode s.cfg.cap (interval (s64 s.tbegin)) (interval (s64 s.tend))
  | .rpiNext => if s.remain = 0 then .seq else .ok

/-- A command's completion writes its code to ERRCODE (R37). -/
theorem errcode_of_exec {i : Instr} {s t : State} (h : exec i s = .next t) :
    t.errcode = commandCode i s := by
  cases i with
  | nop => cases h; rfl
  | encrypt => cases h; rfl
  | hkdf l m => cases h; exact apply_ite State.errcode ..
  | hmac m => cases h; exact apply_ite State.errcode ..
  | interval tsel => cases h; rfl
  | pad => cases h; exact apply_ite State.errcode ..
  | rpiStart =>
    obtain ⟨c, hc, -, rfl⟩ | ⟨hok, rfl⟩ := execRpiStart_cases h
    · exact hc.symm
    · exact hok.symm
  | rpiNext =>
    obtain ⟨h0, rfl⟩ | ⟨hne, rfl⟩ := execRpiNext_cases h
    · exact (if_pos h0).symm
    · exact (if_neg hne).symm

section
variable (i : Instr) (s : State)

/-- A command that decodes does not end with ERR_ILLEGAL. -/
theorem commandCode_ne_illegal : commandCode i s ≠ .illegal := by
  cases i with
  | rpiStart => exact startCode_ne nofun nofun nofun
  | _ => simp [commandCode, ite_eq_iff]

theorem commandCode_eq_field_iff :
    commandCode i s = .field ↔
      (∃ l m, i = .hkdf l m ∧ (l < 1 ∨ 32 < l ∨ 64 < m)) ∨ (∃ m, i = .hmac m ∧ 64 < m) := by
  cases i with
  | hkdf l m => simp [commandCode, imp_iff_not_or]
  | rpiStart => simp [commandCode, startCode_ne]
  | _ => simp [commandCode, ite_eq_iff]

theorem commandCode_eq_limit_iff :
    commandCode i s = .limit ↔
      i = .rpiStart ∧ s.cfg.cap.val < interval (s64 s.tend) - interval (s64 s.tbegin) := by
  cases i with
  | rpiStart => simp [commandCode, startCode_eq_limit_iff]
  | _ => simp [commandCode, ite_eq_iff]

theorem commandCode_eq_range_iff :
    commandCode i s = .range ↔
      (i = .pad ∧ (s64 s.jval < 0 ∨ 4294967295 < s64 s.jval)) ∨
      (i = .rpiStart ∧ interval (s64 s.tend) - interval (s64 s.tbegin) ≤ s.cfg.cap.val ∧
        interval (s64 s.tbegin) ≤ interval (s64 s.tend) ∧
        (interval (s64 s.tbegin) < 0 ∨ 4294967295 < interval (s64 s.tend))) := by
  cases i with
  | pad => simp [commandCode, fitsPad_iff, imp_iff_not_or]
  | rpiStart => simp [commandCode, startCode_eq_range_iff]
  | _ => simp [commandCode, ite_eq_iff]

theorem commandCode_eq_seq_iff : commandCode i s = .seq ↔ i = .rpiNext ∧ s.remain = 0 := by
  cases i with
  | rpiStart => simp [commandCode, startCode_ne]
  | _ => simp [commandCode, ite_eq_iff]

end

/-- ERRCODE reads as the code's number (R21). -/
theorem hostRead_errcode (s : State) : (hostRead 0x08 4 s).toNat = s.errcode.bits.toNat := by
  have hread : hostRead 0x08 4 s = errcodeWord s := hostRead_offset .errcode s
  rw [hread]
  exact BitVec.toNat_setWidth_of_le (by decide)

/-- Settles O34: an illegal word has none of the other causes; a decoded command ends with its
`commandCode`. -/
theorem resultCodeCauses : Obligations.ResultCodeCauses := by
  intro s t h
  obtain ⟨i, hdec, hx⟩ | ⟨e, herr, rfl⟩ := engineMove_cases h
  · simp only [hdec, errcode_of_exec hx, Except.ok.injEq]
    refine ⟨iff_of_false (commandCode_ne_illegal i s) fun hnone => hnone i rfl,
      commandCode_eq_field_iff i s, commandCode_eq_limit_iff i s, commandCode_eq_range_iff i s,
      commandCode_eq_seq_iff i s, ?_⟩
    rw [hostRead_errcode, errcode_of_exec hx]
    cases commandCode i s <;> rfl
  · refine ⟨?_, ?_, ?_, ?_, ?_, hostRead_errcode _⟩ <;> simp [herr]

/-! ## What a failing command leaves alone (R182) -/

/-- The state after a failure: RPI_START's clears REMAIN and has code 3 or 4, every other completes and
does nothing else (R165, R182). -/
theorem engineMove_fails_cases {s t : State} (h : engineMove s = .next t) (hfail : t.errcode ≠ .ok) :
    (decode s.pending = .ok .rpiStart ∧ ∃ c, (c = .range ∨ c = .limit) ∧ t = (s.setRemain 0).complete c) ∨
    (decode s.pending ≠ .ok .rpiStart ∧ ∃ c, t = s.complete c) := by
  obtain ⟨i, hdec, hx⟩ | ⟨e, herr, rfl⟩ := engineMove_cases h
  · by_cases hi : i = .rpiStart
    · subst hi
      obtain ⟨c, rfl, hbad, rfl⟩ | ⟨-, rfl⟩ := execRpiStart_cases hx
      · exact .inl ⟨hdec, _, (startCode_cases ..).resolve_left hbad, rfl⟩
      · exact absurd rfl hfail
    · refine .inr ⟨by simpa [hdec] using hi, ?_⟩
      cases exec_effect hx with
      | code i c => exact ⟨c, rfl⟩
      | rpiStart | rpiStartFails => exact absurd rfl hi
      | _ => exact absurd rfl hfail
  · exact .inr ⟨by simp [herr], _, rfl⟩

/-- Settles O35: by the two ways to fail, of which only RPI_START's writes REMAIN. -/
theorem failureWritesNoResult : Obligations.FailureWritesNoResult := by
  intro s t h hfail
  obtain ⟨hops, hrest, hcompleted⟩ := engineMove_common h
  obtain ⟨hstart, c, hc, rfl⟩ | ⟨hother, c, rfl⟩ := engineMove_fails_cases h hfail
  · exact ⟨hcompleted.lastcmd, hops, ⟨rfl, rfl, rfl, rfl⟩, hrest, rfl, rfl, rfl, fun _ => rfl,
      fun hnot => absurd ⟨hstart, hc⟩ hnot⟩
  · exact ⟨hcompleted.lastcmd, hops, ⟨rfl, rfl, rfl, rfl⟩, hrest, rfl, rfl, rfl,
      fun ⟨hstart, _⟩ => absurd hstart hother, fun _ => rfl⟩

end Sys2Proof.Machine
end

section
/-! PROOFS, family 70: a pending command and its operands, and the host's `WAIT`
(spec/70_reset_and_hazards.md). -/

namespace Sys2Proof.Machine

/-! ## The write lock keeps a command whole (R45, R204) -/

/-- While busy a host move changes nothing of the block but DROP; the rest is the host's own record. -/
theorem hostMove_of_busy {s : State} (hb : s.busy = true) :
    ∃ b ops rs, hostMove s = (s.setDrop b).withRecord ops s.turns rs := by
  unfold hostMove
  split
  · exact ⟨s.drop, s.inputs, s.reads, rfl⟩
  · rename_i op rest _
    cases op with
    | read addr size =>
      simp only [hostAct]
      split
      · exact ⟨s.drop, rest, _, rfl⟩
      · exact ⟨s.drop, rest, s.reads, rfl⟩
    | write addr size v =>
      simp only [hostAct]
      split
      · rename_i off _
        obtain ⟨b, hw⟩ := hostWrite_eq_setDrop_of_busy hb off size v
        exact ⟨b, rest, s.reads, by rw [hw]; rfl⟩
      · exact ⟨s.drop, rest, s.reads, rfl⟩
    | wait => exact ⟨s.drop, _, _, rfl⟩

/-- Settles O41: the host's step is a host move while busy, which changes DROP and the host's record only. -/
theorem busyHoldsOperands : Obligations.BusyHoldsOperands := by
  intro s t hb hm h
  obtain rfl : hostMove s.popTurn = t := by simpa [step_of_mover_host hm] using h
  obtain ⟨b, ops, rs, hmove⟩ := hostMove_of_busy (s := s.popTurn) hb
  rw [hmove]
  exact ⟨hb, rfl, ⟨rfl, rfl, rfl, rfl⟩, ⟨rfl, rfl, rfl, rfl⟩, ⟨rfl, rfl, rfl, rfl⟩⟩

/-! ## A `WAIT` ends (R70, R206) -/

/-- With a `WAIT` first among the accesses a step ends it, with the block idle, or leaves it first and uses
up a turn. -/
theorem step_of_wait {s t : State} {rest : List HostOp} (hin : s.inputs = .wait :: rest)
    (h : step s = .next t) :
    (t.inputs = rest ∧ t.busy = false) ∨ (t.inputs = .wait :: rest ∧ t.turns = s.turns.tail) := by
  obtain ⟨-, rfl⟩ | ⟨hm, -⟩ | ⟨hm, -⟩ | ⟨hm, -⟩ := step_cases h
  · exact .inr ⟨hin, rfl⟩
  · obtain ⟨-, -, hkept⟩ := engineStep_common hm h
    exact .inr ⟨hkept.inputs.trans hin, hkept.turns⟩
  · rw [step_wait hm hin] at h
    cases h
    cases hb : s.busy
    · exact .inl ⟨rfl, hb⟩
    · exact .inr ⟨rfl, rfl⟩
  · obtain ⟨-, hnone⟩ := idle_of_mover_none hm
    simp [hin] at hnone

/-- Settles O43, by induction on the turns left: a step that does not end the `WAIT` uses one up, and
without turns a busy engine moves first. -/
theorem waitEnds : Obligations.WaitEnds := by
  intro s rest hin
  induction hts : s.turns generalizing s with
  | nil =>
    have hno : .reset ∉ s.turns := by simp [hts]
    cases hb : s.busy with
    | false => exact ⟨1, by simp, _, run_succ (step_wait_of_idle hb hin hno) 0, rfl, hb⟩
    | true =>
      obtain ⟨u, hu⟩ := engineMove_next s
      obtain ⟨-, -, hcompleted⟩ := engineMove_common hu
      obtain ⟨n, hn, ts, rs, hrun⟩ := run_wait_of_busy hb hin hno hu
      exact ⟨n, hts ▸ hn, _, hrun, rfl, hcompleted.busy⟩
  | cons turn ts ih =>
    obtain ⟨t, ht⟩ := step_next s
    obtain ⟨hrest, hidle⟩ | ⟨hkept, hturns⟩ := step_of_wait hin ht
    · exact ⟨1, by simp, t, run_succ ht 0, hrest, hidle⟩
    · obtain ⟨n, hn, u, hrun, hu⟩ := ih t hkept (by simp [hturns, hts])
      exact ⟨n + 1, by simpa using hn, u, (run_succ ht n).trans hrun, hu⟩

end Sys2Proof.Machine
end
